-- ==== Sys2Proof/Word.lean ====
section
/-! DEFINITION. The word types (00_scope.md R5) and the shape every memory of the machine has:
a sparse list of key and value pairs. The operations over it are in Machine/Memory.lean. -/

namespace Sys2Proof

/-- A byte: A, X, Y, S, the data bus (R5). -/
abbrev Byte := BitVec 8

/-- A CPU address: the 16-bit CPU bus and PC (R5). -/
abbrev Addr := BitVec 16

/-- A PPU bus address, 14 bits (20_memory.md R88). -/
abbrev PpuAddr := BitVec 14

/-- A PPU `v` or `t` register, 15 bits (10_state.md R34). -/
abbrev Vram := BitVec 15

/-- Sparse data by key: an unlisted key holds the default its reader names. -/
abbrev Sparse (α : Type) := List (Nat × α)

/-- A memory of `w`-bit cells; an unlisted address reads 0. `Memory 8` is a list of `Host.Cell`. -/
abbrev Memory (w : Nat) := Sparse (BitVec w)

/-- The 256 by 240 raster of 6-bit colour indices (10_state.md R44): rows by `y`, each row a memory by `x`. -/
abbrev FrameBuffer := Sparse (Memory 6)

end Sys2Proof
end

