-- ==== Sys2Proof/Syntax.lean ====
section
/-! DEFINITION. The instruction set as syntax: one constructor for each of the 151 rows of
spec/opcode_table.json (30_encoding.md R110), carrying the operand the row's addressing mode
gives it (R100, R102, R103): a byte `b`, a 16-bit value `w`, or a signed displacement `d`. -/

namespace Sys2Proof

/-- The 13 addressing modes (30_encoding.md R103). -/
inductive Mode where
  | imp | acc | imm | zp | zpx | zpy | abs | abx | aby | ind | izx | izy | rel
  deriving DecidableEq, Repr

/-- An instruction: a row of the opcode table with its operand. -/
inductive Instr where
  -- Load, store and transfer (40_load_store_transfer.md)
  /-- `$A1` LDA ($nn,X), (indirect,X) (R140). -/
  | ldaIzx (b : Byte)
  /-- `$A5` LDA $nn, zero page (R140). -/
  | ldaZp (b : Byte)
  /-- `$A9` LDA #$nn, immediate (R140). -/
  | ldaImm (b : Byte)
  /-- `$AD` LDA $nnnn, absolute (R140). -/
  | ldaAbs (w : Addr)
  /-- `$B1` LDA ($nn),Y, (indirect),Y (R140). -/
  | ldaIzy (b : Byte)
  /-- `$B5` LDA $nn,X, zero page,X (R140). -/
  | ldaZpx (b : Byte)
  /-- `$B9` LDA $nnnn,Y, absolute,Y (R140). -/
  | ldaAby (w : Addr)
  /-- `$BD` LDA $nnnn,X, absolute,X (R140). -/
  | ldaAbx (w : Addr)
  /-- `$A2` LDX #$nn, immediate (R141). -/
  | ldxImm (b : Byte)
  /-- `$A6` LDX $nn, zero page (R141). -/
  | ldxZp (b : Byte)
  /-- `$AE` LDX $nnnn, absolute (R141). -/
  | ldxAbs (w : Addr)
  /-- `$B6` LDX $nn,Y, zero page,Y (R141). -/
  | ldxZpy (b : Byte)
  /-- `$BE` LDX $nnnn,Y, absolute,Y (R141). -/
  | ldxAby (w : Addr)
  /-- `$A0` LDY #$nn, immediate (R142). -/
  | ldyImm (b : Byte)
  /-- `$A4` LDY $nn, zero page (R142). -/
  | ldyZp (b : Byte)
  /-- `$AC` LDY $nnnn, absolute (R142). -/
  | ldyAbs (w : Addr)
  /-- `$B4` LDY $nn,X, zero page,X (R142). -/
  | ldyZpx (b : Byte)
  /-- `$BC` LDY $nnnn,X, absolute,X (R142). -/
  | ldyAbx (w : Addr)
  /-- `$81` STA ($nn,X), (indirect,X) (R143). -/
  | staIzx (b : Byte)
  /-- `$85` STA $nn, zero page (R143). -/
  | staZp (b : Byte)
  /-- `$8D` STA $nnnn, absolute (R143). -/
  | staAbs (w : Addr)
  /-- `$91` STA ($nn),Y, (indirect),Y (R143). -/
  | staIzy (b : Byte)
  /-- `$95` STA $nn,X, zero page,X (R143). -/
  | staZpx (b : Byte)
  /-- `$99` STA $nnnn,Y, absolute,Y (R143). -/
  | staAby (w : Addr)
  /-- `$9D` STA $nnnn,X, absolute,X (R143). -/
  | staAbx (w : Addr)
  /-- `$86` STX $nn, zero page (R144). -/
  | stxZp (b : Byte)
  /-- `$8E` STX $nnnn, absolute (R144). -/
  | stxAbs (w : Addr)
  /-- `$96` STX $nn,Y, zero page,Y (R144). -/
  | stxZpy (b : Byte)
  /-- `$84` STY $nn, zero page (R145). -/
  | styZp (b : Byte)
  /-- `$8C` STY $nnnn, absolute (R145). -/
  | styAbs (w : Addr)
  /-- `$94` STY $nn,X, zero page,X (R145). -/
  | styZpx (b : Byte)
  /-- `$AA` TAX, implied (R146). -/
  | tax
  /-- `$A8` TAY, implied (R147). -/
  | tay
  /-- `$8A` TXA, implied (R148). -/
  | txa
  /-- `$98` TYA, implied (R149). -/
  | tya
  /-- `$BA` TSX, implied (R150). -/
  | tsx
  /-- `$9A` TXS, implied (R151). -/
  | txs
  -- Stack (41_stack.md)
  /-- `$48` PHA, implied (R162). -/
  | pha
  /-- `$08` PHP, implied (R163). -/
  | php
  /-- `$68` PLA, implied (R164). -/
  | pla
  /-- `$28` PLP, implied (R165). -/
  | plp
  -- Arithmetic, logic, compare (42_logic_arith_compare.md)
  /-- `$61` ADC ($nn,X), (indirect,X) (R170). -/
  | adcIzx (b : Byte)
  /-- `$65` ADC $nn, zero page (R170). -/
  | adcZp (b : Byte)
  /-- `$69` ADC #$nn, immediate (R170). -/
  | adcImm (b : Byte)
  /-- `$6D` ADC $nnnn, absolute (R170). -/
  | adcAbs (w : Addr)
  /-- `$71` ADC ($nn),Y, (indirect),Y (R170). -/
  | adcIzy (b : Byte)
  /-- `$75` ADC $nn,X, zero page,X (R170). -/
  | adcZpx (b : Byte)
  /-- `$79` ADC $nnnn,Y, absolute,Y (R170). -/
  | adcAby (w : Addr)
  /-- `$7D` ADC $nnnn,X, absolute,X (R170). -/
  | adcAbx (w : Addr)
  /-- `$E1` SBC ($nn,X), (indirect,X) (R171). -/
  | sbcIzx (b : Byte)
  /-- `$E5` SBC $nn, zero page (R171). -/
  | sbcZp (b : Byte)
  /-- `$E9` SBC #$nn, immediate (R171). -/
  | sbcImm (b : Byte)
  /-- `$ED` SBC $nnnn, absolute (R171). -/
  | sbcAbs (w : Addr)
  /-- `$F1` SBC ($nn),Y, (indirect),Y (R171). -/
  | sbcIzy (b : Byte)
  /-- `$F5` SBC $nn,X, zero page,X (R171). -/
  | sbcZpx (b : Byte)
  /-- `$F9` SBC $nnnn,Y, absolute,Y (R171). -/
  | sbcAby (w : Addr)
  /-- `$FD` SBC $nnnn,X, absolute,X (R171). -/
  | sbcAbx (w : Addr)
  /-- `$21` AND ($nn,X), (indirect,X) (R172). -/
  | andIzx (b : Byte)
  /-- `$25` AND $nn, zero page (R172). -/
  | andZp (b : Byte)
  /-- `$29` AND #$nn, immediate (R172). -/
  | andImm (b : Byte)
  /-- `$2D` AND $nnnn, absolute (R172). -/
  | andAbs (w : Addr)
  /-- `$31` AND ($nn),Y, (indirect),Y (R172). -/
  | andIzy (b : Byte)
  /-- `$35` AND $nn,X, zero page,X (R172). -/
  | andZpx (b : Byte)
  /-- `$39` AND $nnnn,Y, absolute,Y (R172). -/
  | andAby (w : Addr)
  /-- `$3D` AND $nnnn,X, absolute,X (R172). -/
  | andAbx (w : Addr)
  /-- `$01` ORA ($nn,X), (indirect,X) (R173). -/
  | oraIzx (b : Byte)
  /-- `$05` ORA $nn, zero page (R173). -/
  | oraZp (b : Byte)
  /-- `$09` ORA #$nn, immediate (R173). -/
  | oraImm (b : Byte)
  /-- `$0D` ORA $nnnn, absolute (R173). -/
  | oraAbs (w : Addr)
  /-- `$11` ORA ($nn),Y, (indirect),Y (R173). -/
  | oraIzy (b : Byte)
  /-- `$15` ORA $nn,X, zero page,X (R173). -/
  | oraZpx (b : Byte)
  /-- `$19` ORA $nnnn,Y, absolute,Y (R173). -/
  | oraAby (w : Addr)
  /-- `$1D` ORA $nnnn,X, absolute,X (R173). -/
  | oraAbx (w : Addr)
  /-- `$41` EOR ($nn,X), (indirect,X) (R174). -/
  | eorIzx (b : Byte)
  /-- `$45` EOR $nn, zero page (R174). -/
  | eorZp (b : Byte)
  /-- `$49` EOR #$nn, immediate (R174). -/
  | eorImm (b : Byte)
  /-- `$4D` EOR $nnnn, absolute (R174). -/
  | eorAbs (w : Addr)
  /-- `$51` EOR ($nn),Y, (indirect),Y (R174). -/
  | eorIzy (b : Byte)
  /-- `$55` EOR $nn,X, zero page,X (R174). -/
  | eorZpx (b : Byte)
  /-- `$59` EOR $nnnn,Y, absolute,Y (R174). -/
  | eorAby (w : Addr)
  /-- `$5D` EOR $nnnn,X, absolute,X (R174). -/
  | eorAbx (w : Addr)
  /-- `$C1` CMP ($nn,X), (indirect,X) (R175). -/
  | cmpIzx (b : Byte)
  /-- `$C5` CMP $nn, zero page (R175). -/
  | cmpZp (b : Byte)
  /-- `$C9` CMP #$nn, immediate (R175). -/
  | cmpImm (b : Byte)
  /-- `$CD` CMP $nnnn, absolute (R175). -/
  | cmpAbs (w : Addr)
  /-- `$D1` CMP ($nn),Y, (indirect),Y (R175). -/
  | cmpIzy (b : Byte)
  /-- `$D5` CMP $nn,X, zero page,X (R175). -/
  | cmpZpx (b : Byte)
  /-- `$D9` CMP $nnnn,Y, absolute,Y (R175). -/
  | cmpAby (w : Addr)
  /-- `$DD` CMP $nnnn,X, absolute,X (R175). -/
  | cmpAbx (w : Addr)
  /-- `$E0` CPX #$nn, immediate (R176). -/
  | cpxImm (b : Byte)
  /-- `$E4` CPX $nn, zero page (R176). -/
  | cpxZp (b : Byte)
  /-- `$EC` CPX $nnnn, absolute (R176). -/
  | cpxAbs (w : Addr)
  /-- `$C0` CPY #$nn, immediate (R177). -/
  | cpyImm (b : Byte)
  /-- `$C4` CPY $nn, zero page (R177). -/
  | cpyZp (b : Byte)
  /-- `$CC` CPY $nnnn, absolute (R177). -/
  | cpyAbs (w : Addr)
  /-- `$24` BIT $nn, zero page (R178). -/
  | bitZp (b : Byte)
  /-- `$2C` BIT $nnnn, absolute (R178). -/
  | bitAbs (w : Addr)
  -- Increment, decrement, shift, rotate (43_incdec_shift.md)
  /-- `$E6` INC $nn, zero page (R190). -/
  | incZp (b : Byte)
  /-- `$EE` INC $nnnn, absolute (R190). -/
  | incAbs (w : Addr)
  /-- `$F6` INC $nn,X, zero page,X (R190). -/
  | incZpx (b : Byte)
  /-- `$FE` INC $nnnn,X, absolute,X (R190). -/
  | incAbx (w : Addr)
  /-- `$C6` DEC $nn, zero page (R191). -/
  | decZp (b : Byte)
  /-- `$CE` DEC $nnnn, absolute (R191). -/
  | decAbs (w : Addr)
  /-- `$D6` DEC $nn,X, zero page,X (R191). -/
  | decZpx (b : Byte)
  /-- `$DE` DEC $nnnn,X, absolute,X (R191). -/
  | decAbx (w : Addr)
  /-- `$E8` INX, implied (R192). -/
  | inx
  /-- `$C8` INY, implied (R193). -/
  | iny
  /-- `$CA` DEX, implied (R194). -/
  | dex
  /-- `$88` DEY, implied (R195). -/
  | dey
  /-- `$06` ASL $nn, zero page (R196). -/
  | aslZp (b : Byte)
  /-- `$0A` ASL A, accumulator (R196). -/
  | aslAcc
  /-- `$0E` ASL $nnnn, absolute (R196). -/
  | aslAbs (w : Addr)
  /-- `$16` ASL $nn,X, zero page,X (R196). -/
  | aslZpx (b : Byte)
  /-- `$1E` ASL $nnnn,X, absolute,X (R196). -/
  | aslAbx (w : Addr)
  /-- `$46` LSR $nn, zero page (R197). -/
  | lsrZp (b : Byte)
  /-- `$4A` LSR A, accumulator (R197). -/
  | lsrAcc
  /-- `$4E` LSR $nnnn, absolute (R197). -/
  | lsrAbs (w : Addr)
  /-- `$56` LSR $nn,X, zero page,X (R197). -/
  | lsrZpx (b : Byte)
  /-- `$5E` LSR $nnnn,X, absolute,X (R197). -/
  | lsrAbx (w : Addr)
  /-- `$26` ROL $nn, zero page (R198). -/
  | rolZp (b : Byte)
  /-- `$2A` ROL A, accumulator (R198). -/
  | rolAcc
  /-- `$2E` ROL $nnnn, absolute (R198). -/
  | rolAbs (w : Addr)
  /-- `$36` ROL $nn,X, zero page,X (R198). -/
  | rolZpx (b : Byte)
  /-- `$3E` ROL $nnnn,X, absolute,X (R198). -/
  | rolAbx (w : Addr)
  /-- `$66` ROR $nn, zero page (R199). -/
  | rorZp (b : Byte)
  /-- `$6A` ROR A, accumulator (R199). -/
  | rorAcc
  /-- `$6E` ROR $nnnn, absolute (R199). -/
  | rorAbs (w : Addr)
  /-- `$76` ROR $nn,X, zero page,X (R199). -/
  | rorZpx (b : Byte)
  /-- `$7E` ROR $nnnn,X, absolute,X (R199). -/
  | rorAbx (w : Addr)
  -- Jumps, subroutines, branches (44_jump_branch_subroutine.md)
  /-- `$4C` JMP $nnnn, absolute (R210). -/
  | jmpAbs (w : Addr)
  /-- `$6C` JMP ($nnnn), indirect (R211). -/
  | jmpInd (w : Addr)
  /-- `$20` JSR $nnnn, absolute (R212). -/
  | jsr (w : Addr)
  /-- `$60` RTS, implied (R213). -/
  | rts
  /-- `$90` BCC label, relative (R215). -/
  | bcc (d : Int)
  /-- `$B0` BCS label, relative (R216). -/
  | bcs (d : Int)
  /-- `$F0` BEQ label, relative (R217). -/
  | beq (d : Int)
  /-- `$30` BMI label, relative (R218). -/
  | bmi (d : Int)
  /-- `$D0` BNE label, relative (R219). -/
  | bne (d : Int)
  /-- `$10` BPL label, relative (R220). -/
  | bpl (d : Int)
  /-- `$50` BVC label, relative (R221). -/
  | bvc (d : Int)
  /-- `$70` BVS label, relative (R222). -/
  | bvs (d : Int)
  -- Flags and system (45_flags_system.md)
  /-- `$18` CLC, implied (R230). -/
  | clc
  /-- `$38` SEC, implied (R231). -/
  | sec
  /-- `$58` CLI, implied (R232). -/
  | cli
  /-- `$78` SEI, implied (R233). -/
  | sei
  /-- `$B8` CLV, implied (R234). -/
  | clv
  /-- `$D8` CLD, implied (R235). -/
  | cld
  /-- `$F8` SED, implied (R236). -/
  | sed
  /-- `$EA` NOP, implied (R237). -/
  | nop
  /-- `$00` BRK, implied (R238). -/
  | brk
  /-- `$40` RTI, implied (R239). -/
  | rti
  deriving DecidableEq, Repr

end Sys2Proof
end

