-- ==== Sys2Proof/Decode.lean ====
section
/-! DEFINITION. The decode table of 30_encoding.md R110, the decoder over any bytes (R100, R102,
R112), and after it the encoder, written from the same table's encodings. -/

namespace Sys2Proof

/-- The low byte of a 16-bit value. -/
def loByte (w : Addr) : Byte := w.setWidth 8

/-- The high byte of a 16-bit value. -/
def hiByte (w : Addr) : Byte := (w >>> 8).setWidth 8

/-- `abs16 = (hi << 8) | lo`: the low byte lies at the lower address (R72, R102). -/
def abs16 (lo hi : Byte) : Addr := hi ++ lo

/-- How many operand bytes follow the opcode (R100, formats F1, F2, F3). -/
def Mode.operandBytes : Mode → Nat
  | .imp | .acc => 0
  | .imm | .zp | .zpx | .zpy | .izx | .izy | .rel => 1
  | .abs | .abx | .aby | .ind => 2

/-- The penalty column of R110: `+p` (R115 a), `+b` (R115 b) or none. -/
inductive Penalty where
  | none | pageCross | branch
  deriving DecidableEq, Repr

/-- A row of the decode table: "opcode byte to {operation, addressing mode, base cycles}" (R101).
`make` builds the instruction from the operand bytes, unused ones being ignored. -/
structure OpRow where
  opcode : Byte
  mnemonic : String
  mode : Mode
  cycles : Nat
  penalty : Penalty
  make : Byte → Byte → Instr

/-- Rows of 40_load_store_transfer.md, part 1. -/
def rowsLoadStoreA : List OpRow :=
  [⟨0xA1, "LDA", .izx, 6, .none, fun b _ => .ldaIzx b⟩,
   ⟨0xA5, "LDA", .zp, 3, .none, fun b _ => .ldaZp b⟩,
   ⟨0xA9, "LDA", .imm, 2, .none, fun b _ => .ldaImm b⟩,
   ⟨0xAD, "LDA", .abs, 4, .none, fun lo hi => .ldaAbs (abs16 lo hi)⟩,
   ⟨0xB1, "LDA", .izy, 5, .pageCross, fun b _ => .ldaIzy b⟩,
   ⟨0xB5, "LDA", .zpx, 4, .none, fun b _ => .ldaZpx b⟩,
   ⟨0xB9, "LDA", .aby, 4, .pageCross, fun lo hi => .ldaAby (abs16 lo hi)⟩,
   ⟨0xBD, "LDA", .abx, 4, .pageCross, fun lo hi => .ldaAbx (abs16 lo hi)⟩,
   ⟨0xA2, "LDX", .imm, 2, .none, fun b _ => .ldxImm b⟩,
   ⟨0xA6, "LDX", .zp, 3, .none, fun b _ => .ldxZp b⟩,
   ⟨0xAE, "LDX", .abs, 4, .none, fun lo hi => .ldxAbs (abs16 lo hi)⟩,
   ⟨0xB6, "LDX", .zpy, 4, .none, fun b _ => .ldxZpy b⟩,
   ⟨0xBE, "LDX", .aby, 4, .pageCross, fun lo hi => .ldxAby (abs16 lo hi)⟩,
   ⟨0xA0, "LDY", .imm, 2, .none, fun b _ => .ldyImm b⟩,
   ⟨0xA4, "LDY", .zp, 3, .none, fun b _ => .ldyZp b⟩,
   ⟨0xAC, "LDY", .abs, 4, .none, fun lo hi => .ldyAbs (abs16 lo hi)⟩,
   ⟨0xB4, "LDY", .zpx, 4, .none, fun b _ => .ldyZpx b⟩,
   ⟨0xBC, "LDY", .abx, 4, .pageCross, fun lo hi => .ldyAbx (abs16 lo hi)⟩,
   ⟨0x81, "STA", .izx, 6, .none, fun b _ => .staIzx b⟩,
   ⟨0x85, "STA", .zp, 3, .none, fun b _ => .staZp b⟩,
   ⟨0x8D, "STA", .abs, 4, .none, fun lo hi => .staAbs (abs16 lo hi)⟩,
   ⟨0x91, "STA", .izy, 6, .none, fun b _ => .staIzy b⟩,
   ⟨0x95, "STA", .zpx, 4, .none, fun b _ => .staZpx b⟩,
   ⟨0x99, "STA", .aby, 5, .none, fun lo hi => .staAby (abs16 lo hi)⟩,
   ⟨0x9D, "STA", .abx, 5, .none, fun lo hi => .staAbx (abs16 lo hi)⟩,
   ⟨0x86, "STX", .zp, 3, .none, fun b _ => .stxZp b⟩,
   ⟨0x8E, "STX", .abs, 4, .none, fun lo hi => .stxAbs (abs16 lo hi)⟩,
   ⟨0x96, "STX", .zpy, 4, .none, fun b _ => .stxZpy b⟩,
   ⟨0x84, "STY", .zp, 3, .none, fun b _ => .styZp b⟩,
   ⟨0x8C, "STY", .abs, 4, .none, fun lo hi => .styAbs (abs16 lo hi)⟩]

/-- Rows of 40_load_store_transfer.md, part 2. -/
def rowsLoadStoreB : List OpRow :=
  [⟨0x94, "STY", .zpx, 4, .none, fun b _ => .styZpx b⟩,
   ⟨0xAA, "TAX", .imp, 2, .none, fun _ _ => .tax⟩,
   ⟨0xA8, "TAY", .imp, 2, .none, fun _ _ => .tay⟩,
   ⟨0x8A, "TXA", .imp, 2, .none, fun _ _ => .txa⟩,
   ⟨0x98, "TYA", .imp, 2, .none, fun _ _ => .tya⟩,
   ⟨0xBA, "TSX", .imp, 2, .none, fun _ _ => .tsx⟩,
   ⟨0x9A, "TXS", .imp, 2, .none, fun _ _ => .txs⟩]

/-- Rows of 41_stack.md. -/
def rowsStack : List OpRow :=
  [⟨0x48, "PHA", .imp, 3, .none, fun _ _ => .pha⟩,
   ⟨0x08, "PHP", .imp, 3, .none, fun _ _ => .php⟩,
   ⟨0x68, "PLA", .imp, 4, .none, fun _ _ => .pla⟩,
   ⟨0x28, "PLP", .imp, 4, .none, fun _ _ => .plp⟩]

/-- Rows of 42_logic_arith_compare.md, part 1. -/
def rowsArithA : List OpRow :=
  [⟨0x61, "ADC", .izx, 6, .none, fun b _ => .adcIzx b⟩,
   ⟨0x65, "ADC", .zp, 3, .none, fun b _ => .adcZp b⟩,
   ⟨0x69, "ADC", .imm, 2, .none, fun b _ => .adcImm b⟩,
   ⟨0x6D, "ADC", .abs, 4, .none, fun lo hi => .adcAbs (abs16 lo hi)⟩,
   ⟨0x71, "ADC", .izy, 5, .pageCross, fun b _ => .adcIzy b⟩,
   ⟨0x75, "ADC", .zpx, 4, .none, fun b _ => .adcZpx b⟩,
   ⟨0x79, "ADC", .aby, 4, .pageCross, fun lo hi => .adcAby (abs16 lo hi)⟩,
   ⟨0x7D, "ADC", .abx, 4, .pageCross, fun lo hi => .adcAbx (abs16 lo hi)⟩,
   ⟨0xE1, "SBC", .izx, 6, .none, fun b _ => .sbcIzx b⟩,
   ⟨0xE5, "SBC", .zp, 3, .none, fun b _ => .sbcZp b⟩,
   ⟨0xE9, "SBC", .imm, 2, .none, fun b _ => .sbcImm b⟩,
   ⟨0xED, "SBC", .abs, 4, .none, fun lo hi => .sbcAbs (abs16 lo hi)⟩,
   ⟨0xF1, "SBC", .izy, 5, .pageCross, fun b _ => .sbcIzy b⟩,
   ⟨0xF5, "SBC", .zpx, 4, .none, fun b _ => .sbcZpx b⟩,
   ⟨0xF9, "SBC", .aby, 4, .pageCross, fun lo hi => .sbcAby (abs16 lo hi)⟩,
   ⟨0xFD, "SBC", .abx, 4, .pageCross, fun lo hi => .sbcAbx (abs16 lo hi)⟩,
   ⟨0x21, "AND", .izx, 6, .none, fun b _ => .andIzx b⟩,
   ⟨0x25, "AND", .zp, 3, .none, fun b _ => .andZp b⟩,
   ⟨0x29, "AND", .imm, 2, .none, fun b _ => .andImm b⟩,
   ⟨0x2D, "AND", .abs, 4, .none, fun lo hi => .andAbs (abs16 lo hi)⟩,
   ⟨0x31, "AND", .izy, 5, .pageCross, fun b _ => .andIzy b⟩,
   ⟨0x35, "AND", .zpx, 4, .none, fun b _ => .andZpx b⟩,
   ⟨0x39, "AND", .aby, 4, .pageCross, fun lo hi => .andAby (abs16 lo hi)⟩,
   ⟨0x3D, "AND", .abx, 4, .pageCross, fun lo hi => .andAbx (abs16 lo hi)⟩,
   ⟨0x01, "ORA", .izx, 6, .none, fun b _ => .oraIzx b⟩,
   ⟨0x05, "ORA", .zp, 3, .none, fun b _ => .oraZp b⟩,
   ⟨0x09, "ORA", .imm, 2, .none, fun b _ => .oraImm b⟩,
   ⟨0x0D, "ORA", .abs, 4, .none, fun lo hi => .oraAbs (abs16 lo hi)⟩,
   ⟨0x11, "ORA", .izy, 5, .pageCross, fun b _ => .oraIzy b⟩,
   ⟨0x15, "ORA", .zpx, 4, .none, fun b _ => .oraZpx b⟩]

/-- Rows of 42_logic_arith_compare.md, part 2. -/
def rowsArithB : List OpRow :=
  [⟨0x19, "ORA", .aby, 4, .pageCross, fun lo hi => .oraAby (abs16 lo hi)⟩,
   ⟨0x1D, "ORA", .abx, 4, .pageCross, fun lo hi => .oraAbx (abs16 lo hi)⟩,
   ⟨0x41, "EOR", .izx, 6, .none, fun b _ => .eorIzx b⟩,
   ⟨0x45, "EOR", .zp, 3, .none, fun b _ => .eorZp b⟩,
   ⟨0x49, "EOR", .imm, 2, .none, fun b _ => .eorImm b⟩,
   ⟨0x4D, "EOR", .abs, 4, .none, fun lo hi => .eorAbs (abs16 lo hi)⟩,
   ⟨0x51, "EOR", .izy, 5, .pageCross, fun b _ => .eorIzy b⟩,
   ⟨0x55, "EOR", .zpx, 4, .none, fun b _ => .eorZpx b⟩,
   ⟨0x59, "EOR", .aby, 4, .pageCross, fun lo hi => .eorAby (abs16 lo hi)⟩,
   ⟨0x5D, "EOR", .abx, 4, .pageCross, fun lo hi => .eorAbx (abs16 lo hi)⟩,
   ⟨0xC1, "CMP", .izx, 6, .none, fun b _ => .cmpIzx b⟩,
   ⟨0xC5, "CMP", .zp, 3, .none, fun b _ => .cmpZp b⟩,
   ⟨0xC9, "CMP", .imm, 2, .none, fun b _ => .cmpImm b⟩,
   ⟨0xCD, "CMP", .abs, 4, .none, fun lo hi => .cmpAbs (abs16 lo hi)⟩,
   ⟨0xD1, "CMP", .izy, 5, .pageCross, fun b _ => .cmpIzy b⟩,
   ⟨0xD5, "CMP", .zpx, 4, .none, fun b _ => .cmpZpx b⟩,
   ⟨0xD9, "CMP", .aby, 4, .pageCross, fun lo hi => .cmpAby (abs16 lo hi)⟩,
   ⟨0xDD, "CMP", .abx, 4, .pageCross, fun lo hi => .cmpAbx (abs16 lo hi)⟩,
   ⟨0xE0, "CPX", .imm, 2, .none, fun b _ => .cpxImm b⟩,
   ⟨0xE4, "CPX", .zp, 3, .none, fun b _ => .cpxZp b⟩,
   ⟨0xEC, "CPX", .abs, 4, .none, fun lo hi => .cpxAbs (abs16 lo hi)⟩,
   ⟨0xC0, "CPY", .imm, 2, .none, fun b _ => .cpyImm b⟩,
   ⟨0xC4, "CPY", .zp, 3, .none, fun b _ => .cpyZp b⟩,
   ⟨0xCC, "CPY", .abs, 4, .none, fun lo hi => .cpyAbs (abs16 lo hi)⟩,
   ⟨0x24, "BIT", .zp, 3, .none, fun b _ => .bitZp b⟩,
   ⟨0x2C, "BIT", .abs, 4, .none, fun lo hi => .bitAbs (abs16 lo hi)⟩]

/-- Rows of 43_incdec_shift.md, part 1. -/
def rowsIncShiftA : List OpRow :=
  [⟨0xE6, "INC", .zp, 5, .none, fun b _ => .incZp b⟩,
   ⟨0xEE, "INC", .abs, 6, .none, fun lo hi => .incAbs (abs16 lo hi)⟩,
   ⟨0xF6, "INC", .zpx, 6, .none, fun b _ => .incZpx b⟩,
   ⟨0xFE, "INC", .abx, 7, .none, fun lo hi => .incAbx (abs16 lo hi)⟩,
   ⟨0xC6, "DEC", .zp, 5, .none, fun b _ => .decZp b⟩,
   ⟨0xCE, "DEC", .abs, 6, .none, fun lo hi => .decAbs (abs16 lo hi)⟩,
   ⟨0xD6, "DEC", .zpx, 6, .none, fun b _ => .decZpx b⟩,
   ⟨0xDE, "DEC", .abx, 7, .none, fun lo hi => .decAbx (abs16 lo hi)⟩,
   ⟨0xE8, "INX", .imp, 2, .none, fun _ _ => .inx⟩,
   ⟨0xC8, "INY", .imp, 2, .none, fun _ _ => .iny⟩,
   ⟨0xCA, "DEX", .imp, 2, .none, fun _ _ => .dex⟩,
   ⟨0x88, "DEY", .imp, 2, .none, fun _ _ => .dey⟩,
   ⟨0x06, "ASL", .zp, 5, .none, fun b _ => .aslZp b⟩,
   ⟨0x0A, "ASL", .acc, 2, .none, fun _ _ => .aslAcc⟩,
   ⟨0x0E, "ASL", .abs, 6, .none, fun lo hi => .aslAbs (abs16 lo hi)⟩,
   ⟨0x16, "ASL", .zpx, 6, .none, fun b _ => .aslZpx b⟩,
   ⟨0x1E, "ASL", .abx, 7, .none, fun lo hi => .aslAbx (abs16 lo hi)⟩,
   ⟨0x46, "LSR", .zp, 5, .none, fun b _ => .lsrZp b⟩,
   ⟨0x4A, "LSR", .acc, 2, .none, fun _ _ => .lsrAcc⟩,
   ⟨0x4E, "LSR", .abs, 6, .none, fun lo hi => .lsrAbs (abs16 lo hi)⟩,
   ⟨0x56, "LSR", .zpx, 6, .none, fun b _ => .lsrZpx b⟩,
   ⟨0x5E, "LSR", .abx, 7, .none, fun lo hi => .lsrAbx (abs16 lo hi)⟩,
   ⟨0x26, "ROL", .zp, 5, .none, fun b _ => .rolZp b⟩,
   ⟨0x2A, "ROL", .acc, 2, .none, fun _ _ => .rolAcc⟩,
   ⟨0x2E, "ROL", .abs, 6, .none, fun lo hi => .rolAbs (abs16 lo hi)⟩,
   ⟨0x36, "ROL", .zpx, 6, .none, fun b _ => .rolZpx b⟩,
   ⟨0x3E, "ROL", .abx, 7, .none, fun lo hi => .rolAbx (abs16 lo hi)⟩,
   ⟨0x66, "ROR", .zp, 5, .none, fun b _ => .rorZp b⟩,
   ⟨0x6A, "ROR", .acc, 2, .none, fun _ _ => .rorAcc⟩,
   ⟨0x6E, "ROR", .abs, 6, .none, fun lo hi => .rorAbs (abs16 lo hi)⟩]

/-- Rows of 43_incdec_shift.md, part 2. -/
def rowsIncShiftB : List OpRow :=
  [⟨0x76, "ROR", .zpx, 6, .none, fun b _ => .rorZpx b⟩,
   ⟨0x7E, "ROR", .abx, 7, .none, fun lo hi => .rorAbx (abs16 lo hi)⟩]

/-- Rows of 44_jump_branch_subroutine.md. -/
def rowsControl : List OpRow :=
  [⟨0x4C, "JMP", .abs, 3, .none, fun lo hi => .jmpAbs (abs16 lo hi)⟩,
   ⟨0x6C, "JMP", .ind, 5, .none, fun lo hi => .jmpInd (abs16 lo hi)⟩,
   ⟨0x20, "JSR", .abs, 6, .none, fun lo hi => .jsr (abs16 lo hi)⟩,
   ⟨0x60, "RTS", .imp, 6, .none, fun _ _ => .rts⟩,
   ⟨0x90, "BCC", .rel, 2, .branch, fun b _ => .bcc b.toInt⟩,
   ⟨0xB0, "BCS", .rel, 2, .branch, fun b _ => .bcs b.toInt⟩,
   ⟨0xF0, "BEQ", .rel, 2, .branch, fun b _ => .beq b.toInt⟩,
   ⟨0x30, "BMI", .rel, 2, .branch, fun b _ => .bmi b.toInt⟩,
   ⟨0xD0, "BNE", .rel, 2, .branch, fun b _ => .bne b.toInt⟩,
   ⟨0x10, "BPL", .rel, 2, .branch, fun b _ => .bpl b.toInt⟩,
   ⟨0x50, "BVC", .rel, 2, .branch, fun b _ => .bvc b.toInt⟩,
   ⟨0x70, "BVS", .rel, 2, .branch, fun b _ => .bvs b.toInt⟩]

/-- Rows of 45_flags_system.md. -/
def rowsSystem : List OpRow :=
  [⟨0x18, "CLC", .imp, 2, .none, fun _ _ => .clc⟩,
   ⟨0x38, "SEC", .imp, 2, .none, fun _ _ => .sec⟩,
   ⟨0x58, "CLI", .imp, 2, .none, fun _ _ => .cli⟩,
   ⟨0x78, "SEI", .imp, 2, .none, fun _ _ => .sei⟩,
   ⟨0xB8, "CLV", .imp, 2, .none, fun _ _ => .clv⟩,
   ⟨0xD8, "CLD", .imp, 2, .none, fun _ _ => .cld⟩,
   ⟨0xF8, "SED", .imp, 2, .none, fun _ _ => .sed⟩,
   ⟨0xEA, "NOP", .imp, 2, .none, fun _ _ => .nop⟩,
   ⟨0x00, "BRK", .imp, 7, .none, fun _ _ => .brk⟩,
   ⟨0x40, "RTI", .imp, 6, .none, fun _ _ => .rti⟩]

/-- The 151 rows of R110, in the order of files 40 to 45. -/
def opTable : List OpRow :=
  rowsLoadStoreA ++ rowsLoadStoreB ++ rowsStack ++ rowsArithA ++ rowsArithB ++ rowsIncShiftA ++
    rowsIncShiftB ++ rowsControl ++ rowsSystem

/-- `DecodeTable[opcode]`: all 8 bits of the opcode select the row (R100); `none` for the 105
undefined bytes (R112). -/
def rowOf (op : Byte) : Option OpRow := opTable.find? (fun r => r.opcode == op)

/-- Why bytes are no instruction. -/
inductive DecodeError where
  /-- The opcode byte is one of the 105 of R112. -/
  | undefinedOpcode (op : Byte)
  /-- The bytes end before the instruction does. -/
  | truncated
  deriving DecidableEq, Repr

/-- Read one instruction from the front of a list of bytes, and give the bytes after it. Total:
an undefined opcode and a cut-off instruction are rejected by name. -/
def decode : List Byte → Except DecodeError (Instr × List Byte)
  | [] => .error .truncated
  | op :: bs =>
    match rowOf op with
    | none => .error (.undefinedOpcode op)
    | some r =>
      match r.mode.operandBytes, bs with
      | 0, rest => .ok (r.make 0 0, rest)
      | 1, b :: rest => .ok (r.make b 0, rest)
      | 2, lo :: hi :: rest => .ok (r.make lo hi, rest)
      | _, _ => .error .truncated

/-- The bytes of `w` from the least significant up, `n` of them. -/
def bytesOf : Nat → Nat → List Byte
  | 0, _ => []
  | n + 1, w => BitVec.ofNat 8 w :: bytesOf n (w / 256)

/-- The bytes of an opcode-table word of `nbits` bits, first byte at the lowest address, padded with
zero bytes to the longest instruction (3 bytes, R100). -/
def tableBytes (nbits w : Nat) : List Byte := bytesOf 3 (w % 2 ^ nbits)

/-- The instruction the decoder reads from an opcode-table word. -/
def decodeTableWord (nbits w : Nat) : Option Instr :=
  match decode (tableBytes nbits w) with
  | .ok (i, _) => some i
  | .error _ => none

/-- The bytes of a well-formed instruction, written from the encodings of R110. -/
def encode : Instr → List Byte
  | .ldaIzx b => [0xA1, b]
  | .ldaZp b => [0xA5, b]
  | .ldaImm b => [0xA9, b]
  | .ldaAbs w => [0xAD, loByte w, hiByte w]
  | .ldaIzy b => [0xB1, b]
  | .ldaZpx b => [0xB5, b]
  | .ldaAby w => [0xB9, loByte w, hiByte w]
  | .ldaAbx w => [0xBD, loByte w, hiByte w]
  | .ldxImm b => [0xA2, b]
  | .ldxZp b => [0xA6, b]
  | .ldxAbs w => [0xAE, loByte w, hiByte w]
  | .ldxZpy b => [0xB6, b]
  | .ldxAby w => [0xBE, loByte w, hiByte w]
  | .ldyImm b => [0xA0, b]
  | .ldyZp b => [0xA4, b]
  | .ldyAbs w => [0xAC, loByte w, hiByte w]
  | .ldyZpx b => [0xB4, b]
  | .ldyAbx w => [0xBC, loByte w, hiByte w]
  | .staIzx b => [0x81, b]
  | .staZp b => [0x85, b]
  | .staAbs w => [0x8D, loByte w, hiByte w]
  | .staIzy b => [0x91, b]
  | .staZpx b => [0x95, b]
  | .staAby w => [0x99, loByte w, hiByte w]
  | .staAbx w => [0x9D, loByte w, hiByte w]
  | .stxZp b => [0x86, b]
  | .stxAbs w => [0x8E, loByte w, hiByte w]
  | .stxZpy b => [0x96, b]
  | .styZp b => [0x84, b]
  | .styAbs w => [0x8C, loByte w, hiByte w]
  | .styZpx b => [0x94, b]
  | .tax => [0xAA]
  | .tay => [0xA8]
  | .txa => [0x8A]
  | .tya => [0x98]
  | .tsx => [0xBA]
  | .txs => [0x9A]
  | .pha => [0x48]
  | .php => [0x08]
  | .pla => [0x68]
  | .plp => [0x28]
  | .adcIzx b => [0x61, b]
  | .adcZp b => [0x65, b]
  | .adcImm b => [0x69, b]
  | .adcAbs w => [0x6D, loByte w, hiByte w]
  | .adcIzy b => [0x71, b]
  | .adcZpx b => [0x75, b]
  | .adcAby w => [0x79, loByte w, hiByte w]
  | .adcAbx w => [0x7D, loByte w, hiByte w]
  | .sbcIzx b => [0xE1, b]
  | .sbcZp b => [0xE5, b]
  | .sbcImm b => [0xE9, b]
  | .sbcAbs w => [0xED, loByte w, hiByte w]
  | .sbcIzy b => [0xF1, b]
  | .sbcZpx b => [0xF5, b]
  | .sbcAby w => [0xF9, loByte w, hiByte w]
  | .sbcAbx w => [0xFD, loByte w, hiByte w]
  | .andIzx b => [0x21, b]
  | .andZp b => [0x25, b]
  | .andImm b => [0x29, b]
  | .andAbs w => [0x2D, loByte w, hiByte w]
  | .andIzy b => [0x31, b]
  | .andZpx b => [0x35, b]
  | .andAby w => [0x39, loByte w, hiByte w]
  | .andAbx w => [0x3D, loByte w, hiByte w]
  | .oraIzx b => [0x01, b]
  | .oraZp b => [0x05, b]
  | .oraImm b => [0x09, b]
  | .oraAbs w => [0x0D, loByte w, hiByte w]
  | .oraIzy b => [0x11, b]
  | .oraZpx b => [0x15, b]
  | .oraAby w => [0x19, loByte w, hiByte w]
  | .oraAbx w => [0x1D, loByte w, hiByte w]
  | .eorIzx b => [0x41, b]
  | .eorZp b => [0x45, b]
  | .eorImm b => [0x49, b]
  | .eorAbs w => [0x4D, loByte w, hiByte w]
  | .eorIzy b => [0x51, b]
  | .eorZpx b => [0x55, b]
  | .eorAby w => [0x59, loByte w, hiByte w]
  | .eorAbx w => [0x5D, loByte w, hiByte w]
  | .cmpIzx b => [0xC1, b]
  | .cmpZp b => [0xC5, b]
  | .cmpImm b => [0xC9, b]
  | .cmpAbs w => [0xCD, loByte w, hiByte w]
  | .cmpIzy b => [0xD1, b]
  | .cmpZpx b => [0xD5, b]
  | .cmpAby w => [0xD9, loByte w, hiByte w]
  | .cmpAbx w => [0xDD, loByte w, hiByte w]
  | .cpxImm b => [0xE0, b]
  | .cpxZp b => [0xE4, b]
  | .cpxAbs w => [0xEC, loByte w, hiByte w]
  | .cpyImm b => [0xC0, b]
  | .cpyZp b => [0xC4, b]
  | .cpyAbs w => [0xCC, loByte w, hiByte w]
  | .bitZp b => [0x24, b]
  | .bitAbs w => [0x2C, loByte w, hiByte w]
  | .incZp b => [0xE6, b]
  | .incAbs w => [0xEE, loByte w, hiByte w]
  | .incZpx b => [0xF6, b]
  | .incAbx w => [0xFE, loByte w, hiByte w]
  | .decZp b => [0xC6, b]
  | .decAbs w => [0xCE, loByte w, hiByte w]
  | .decZpx b => [0xD6, b]
  | .decAbx w => [0xDE, loByte w, hiByte w]
  | .inx => [0xE8]
  | .iny => [0xC8]
  | .dex => [0xCA]
  | .dey => [0x88]
  | .aslZp b => [0x06, b]
  | .aslAcc => [0x0A]
  | .aslAbs w => [0x0E, loByte w, hiByte w]
  | .aslZpx b => [0x16, b]
  | .aslAbx w => [0x1E, loByte w, hiByte w]
  | .lsrZp b => [0x46, b]
  | .lsrAcc => [0x4A]
  | .lsrAbs w => [0x4E, loByte w, hiByte w]
  | .lsrZpx b => [0x56, b]
  | .lsrAbx w => [0x5E, loByte w, hiByte w]
  | .rolZp b => [0x26, b]
  | .rolAcc => [0x2A]
  | .rolAbs w => [0x2E, loByte w, hiByte w]
  | .rolZpx b => [0x36, b]
  | .rolAbx w => [0x3E, loByte w, hiByte w]
  | .rorZp b => [0x66, b]
  | .rorAcc => [0x6A]
  | .rorAbs w => [0x6E, loByte w, hiByte w]
  | .rorZpx b => [0x76, b]
  | .rorAbx w => [0x7E, loByte w, hiByte w]
  | .jmpAbs w => [0x4C, loByte w, hiByte w]
  | .jmpInd w => [0x6C, loByte w, hiByte w]
  | .jsr w => [0x20, loByte w, hiByte w]
  | .rts => [0x60]
  | .bcc d => [0x90, BitVec.ofInt 8 d]
  | .bcs d => [0xB0, BitVec.ofInt 8 d]
  | .beq d => [0xF0, BitVec.ofInt 8 d]
  | .bmi d => [0x30, BitVec.ofInt 8 d]
  | .bne d => [0xD0, BitVec.ofInt 8 d]
  | .bpl d => [0x10, BitVec.ofInt 8 d]
  | .bvc d => [0x50, BitVec.ofInt 8 d]
  | .bvs d => [0x70, BitVec.ofInt 8 d]
  | .clc => [0x18]
  | .sec => [0x38]
  | .cli => [0x58]
  | .sei => [0x78]
  | .clv => [0xB8]
  | .cld => [0xD8]
  | .sed => [0xF8]
  | .nop => [0xEA]
  | .brk => [0x00]
  | .rti => [0x40]
end Sys2Proof
end

