-- ==== Sys2Proof/Machine/State.lean ====
section
/-! DEFINITION. The state of the block as plain data (10_state.md), the two reasons a step can stop,
and the power-on state (R49). Everything R20 to R48 names is here; the ports to the host (R7) and
the launch parameters (R6), which the spec calls inputs and configuration, are here too, because a
step is a function of the state alone. -/

namespace Sys2Proof.Machine

/-- The CPU: registers, the six stored flags, interrupt latches, counters (R20 to R28). -/
structure Cpu where
  a : Byte
  x : Byte
  y : Byte
  /-- Stack pointer, naming `$0100 | s` (R22). -/
  s : Byte
  pc : Addr
  /-- Flag C, carry (R24). -/
  c : Bool
  /-- Flag Z, zero. -/
  z : Bool
  /-- Flag I, interrupt disable. -/
  i : Bool
  /-- Flag D, decimal: stored only. -/
  d : Bool
  /-- Flag V, overflow. -/
  v : Bool
  /-- Flag N, negative. -/
  n : Bool
  /-- Level of `nmi_out` when last observed (R26). -/
  nmiPrev : Bool
  nmiPending : Bool
  resetPending : Bool
  /-- Set by Halt; only RESET clears it (R28). -/
  halted : Bool
  /-- Cycles since power-on, unbounded (R27). -/
  cyc : Nat
  /-- The per-step tally of R9 and R101; after a step, the count that step returned (log entry 1). -/
  cycles : Nat
  deriving DecidableEq, Repr

/-- A sprite render unit (R41). -/
structure SpriteUnit where
  patLo : Byte
  patHi : Byte
  attr : Byte
  xcnt : Byte
  deriving DecidableEq, Repr

/-- A transparent unit, also the power-on value of every unit. -/
def SpriteUnit.empty : SpriteUnit := { patLo := 0, patHi := 0, attr := 0, xcnt := 0 }

/-- The PPU (R30 to R44). -/
structure Ppu where
  /-- PPUCTRL (R30). -/
  ctrl : Byte
  /-- PPUMASK (R31). -/
  mask : Byte
  vblank : Bool
  spr0Hit : Bool
  sprOverflow : Bool
  oamAddr : Byte
  /-- Current VRAM address `v` (R34). -/
  v : Vram
  /-- Temporary address `t` (R34). -/
  t : Vram
  /-- Fine X, the register `x` (R34). -/
  fineX : BitVec 3
  /-- Write toggle `w`; false is 0 (R34). -/
  w : Bool
  readBuffer : Byte
  ioLatch : Byte
  /-- Nametable RAM, addresses 0 to 2047 (R36). -/
  ntRam : Memory 8
  /-- Palette RAM, 28 distinct cells of indices 0 to 31 (R37). -/
  palette : Memory 6
  /-- Primary OAM, addresses 0 to 255 (R38). -/
  oam : Memory 8
  /-- Secondary OAM, addresses 0 to 31 (R39). -/
  secOam : Memory 8
  secCount : Nat
  secHasSpr0 : Bool
  bgLo : BitVec 16
  bgHi : BitVec 16
  atLo : Byte
  atHi : Byte
  atLatchLo : Bool
  atLatchHi : Bool
  ntByte : Byte
  atBits : BitVec 2
  ptLo : Byte
  ptHi : Byte
  /-- The eight sprite units, unit 0 first (R41). -/
  units : List SpriteUnit
  unitsHaveSpr0 : Bool
  /-- `tmp_lo` of R319, which can live across a step boundary (log entry 2). -/
  tmpLo : Byte
  scanline : Nat
  dot : Nat
  oddFrame : Bool
  framebuffer : FrameBuffer
  deriving DecidableEq, Repr

/-- `MAPPER`: iNES mapper 0 or 1; no machine exists with another (R6, R342). -/
inductive Mapper where
  | nrom | mmc1
  deriving DecidableEq, Repr

/-- `HDR_MIRRORING` (R6). -/
inductive HeaderMirroring where
  | horizontal | vertical
  deriving DecidableEq, Repr

/-- What a mapper's `mirroring()` answers (R340). -/
inductive Mirroring where
  | horizontal | vertical | singleLo | singleHi
  deriving DecidableEq, Repr

/-- The launch parameters of R6: configuration, changed by no step. -/
structure Cartridge where
  mapper : Mapper
  /-- PRG-ROM size in 16 KiB banks; at least 1. -/
  prgBanks : Nat
  prg : Memory 8
  /-- CHR-ROM size in 8 KiB banks; 0 means CHR-RAM. -/
  chrBanks : Nat
  chr : Memory 8
  hdrMirroring : HeaderMirroring
  /-- Header battery flag; no rule reads it (U17). -/
  battery : Bool
  deriving DecidableEq, Repr

/-- The MMC1 registers (R46). -/
structure Mmc1 where
  shift : BitVec 5
  /-- How many bits are in `shift`, 0 to 4. -/
  count : Nat
  control : BitVec 5
  chr0 : BitVec 5
  chr1 : BitVec 5
  prg : BitVec 5
  deriving DecidableEq, Repr

/-- The cartridge in its slot: image, mapper registers and cartridge RAM (R45 to R47). -/
structure Board where
  cart : Cartridge
  mmc1 : Mmc1
  /-- `prg_ram`, which exists iff the mapper is MMC1 (R47). -/
  prgRam : Memory 8
  /-- `chr_ram`, which exists iff `chrBanks = 0` (R47). -/
  chrRam : Memory 8
  deriving DecidableEq, Repr

/-- The controller registers (R48). -/
structure Controllers where
  shift0 : Byte
  shift1 : Byte
  strobe : Bool
  deriving DecidableEq, Repr

/-- The block's ports to the host (R7, R331, R380, R399). -/
structure Ports where
  resetLine : Bool
  irqLine : Bool
  buttons0 : Byte
  buttons1 : Byte
  /-- The snapshots the host offers at the coming frame events, next one first (log entry 4). -/
  pendingInput : List (Byte × Byte)
  /-- How many frame events there were (log entry 5). -/
  frameCount : Nat
  /-- The frame last delivered (log entry 5). -/
  frameOut : FrameBuffer
  deriving DecidableEq, Repr

/-- The state of the whole block. -/
structure State where
  cpu : Cpu
  /-- Work RAM, addresses 0 to 2047 (R29). -/
  ram : Memory 8
  ppu : Ppu
  board : Board
  ctl : Controllers
  ports : Ports
  deriving DecidableEq, Repr

/-- Why the machine stops with a fault. -/
inductive Fault where
  /-- Raised by a step that fetches an undefined opcode byte `op` at `pc` (R112, R411, U1). Safe: the
  spec calls it a fault; the state it leaves is `haltedState`. -/
  | undefinedOpcode (op : Byte) (pc : Addr)
  /-- Raised by a step of a halted CPU with no RESET due (R28, R101, U2). Safe: the spec says there is
  no successor. -/
  | halted (pc : Addr)
  deriving DecidableEq, Repr

/-- Why an instruction has no meaning. -/
inductive Refusal where
  /-- Raised by an arm of `exec` whose instruction has no meaning yet; none does. Safe. -/
  | notModelled (mnemonic : String)
  deriving DecidableEq, Repr

/-- The outcome of an instruction or a step. -/
abbrev Out := Host.Outcome State Fault Refusal

/-- The CPU at power-on (R49). -/
def Cpu.powerOn : Cpu :=
  { a := 0, x := 0, y := 0, s := 0, pc := 0
    c := false, z := false, i := false, d := false, v := false, n := false
    nmiPrev := false, nmiPending := false, resetPending := true, halted := false
    cyc := 0, cycles := 0 }

/-- The PPU at power-on (R49): every register, latch and memory 0. -/
def Ppu.powerOn : Ppu :=
  { ctrl := 0, mask := 0, vblank := false, spr0Hit := false, sprOverflow := false, oamAddr := 0
    v := 0, t := 0, fineX := 0, w := false, readBuffer := 0, ioLatch := 0
    ntRam := [], palette := [], oam := [], secOam := [], secCount := 0, secHasSpr0 := false
    bgLo := 0, bgHi := 0, atLo := 0, atHi := 0, atLatchLo := false, atLatchHi := false
    ntByte := 0, atBits := 0, ptLo := 0, ptHi := 0
    units := List.replicate 8 SpriteUnit.empty, unitsHaveSpr0 := false, tmpLo := 0
    scanline := 0, dot := 0, oddFrame := false, framebuffer := [] }

/-- The MMC1 registers at power-on: control `$0C`, the rest 0 (R46, R49). -/
def Mmc1.powerOn : Mmc1 := { shift := 0, count := 0, control := 0x0C, chr0 := 0, chr1 := 0, prg := 0 }

/-- The image of `State.reset`: NROM, one PRG bank, CHR-RAM, no byte listed (DESIGN CHOICE, log entry 3). -/
def Cartridge.blank : Cartridge :=
  { mapper := .nrom, prgBanks := 1, prg := [], chrBanks := 0, chr := [],
    hdrMirroring := .horizontal, battery := false }

/-- Power-on with the cartridge `c` in the slot (R49, R450). -/
def State.powerOn (c : Cartridge) : State :=
  { cpu := Cpu.powerOn
    ram := []
    ppu := Ppu.powerOn
    board := { cart := c, mmc1 := Mmc1.powerOn, prgRam := [], chrRam := [] }
    ctl := { shift0 := 0, shift1 := 0, strobe := false }
    ports :=
      { resetLine := false, irqLine := false, buttons0 := 0, buttons1 := 0, pendingInput := []
        frameCount := 0, frameOut := [] } }

/-- The machine at power-on with the blank cartridge: the state before the first step, whose
`resetPending` makes that step the RESET sequence (R49, R451). -/
def State.reset : State := State.powerOn Cartridge.blank

end Sys2Proof.Machine
end

