-- ==== Sys2Proof/Machine/Controllers.lean ====
section
/-! DEFINITION. The controller ports (49_controllers_dma_orchestrator.md R380 to R384). -/

namespace Sys2Proof.Machine

/-- `CtlWrite(val)`: the strobe bit, and both shift registers loaded from the buttons (R381). -/
def Controllers.write (val : Byte) (p : Ports) : Controllers :=
  { strobe := val.getLsbD 0, shift0 := p.buttons0, shift1 := p.buttons1 }

/-- The byte a controller port returns: the live A button in strobe mode, else the register's bit 0 (R383). -/
def ctlByte (strobe : Bool) (buttons shift : Byte) : Byte := if strobe then buttons &&& 1 else shift &&& 1

/-- A shift register after a read: ones come in at the top; in strobe mode nothing shifts (R383). -/
def ctlShift (strobe : Bool) (shift : Byte) : Byte := if strobe then shift else (shift >>> 1) ||| 0x80

/-- Controller 0 after a read of `$4016` (R383, R384). -/
def Controllers.afterRead0 (c : Controllers) : Controllers := { c with shift0 := ctlShift c.strobe c.shift0 }

/-- Controller 1 after a read of `$4017` (R383, R384). -/
def Controllers.afterRead1 (c : Controllers) : Controllers := { c with shift1 := ctlShift c.strobe c.shift1 }

end Sys2Proof.Machine
end

