-- ==== Sys2Proof/Machine/Registers.lean ====
section
/-! DEFINITION. The named updates of the CPU's registers, and the way a state's CPU or PPU is
replaced. Every write of a CPU register by an instruction goes through one of these. -/

namespace Sys2Proof.Machine

/-- Apply `f` to the CPU; nothing else changes. -/
def State.mapCpu (f : Cpu → Cpu) (s : State) : State := { s with cpu := f s.cpu }

/-- Replace the PPU; nothing else changes. -/
def State.setPpu (p : Ppu) (s : State) : State := { s with ppu := p }

/-- Replace the controllers; nothing else changes. -/
def State.setCtl (c : Controllers) (s : State) : State := { s with ctl := c }

/-- Replace the board; nothing else changes. -/
def State.setBoard (b : Board) (s : State) : State := { s with board := b }

/-- Replace work RAM; nothing else changes. -/
def State.setRam (m : Memory 8) (s : State) : State := { s with ram := m }

/-- `A <- v`. -/
def Cpu.setA (v : Byte) (c : Cpu) : Cpu := { c with a := v }
/-- `X <- v`. -/
def Cpu.setX (v : Byte) (c : Cpu) : Cpu := { c with x := v }
/-- `Y <- v`. -/
def Cpu.setY (v : Byte) (c : Cpu) : Cpu := { c with y := v }
/-- `S <- v`. -/
def Cpu.setS (v : Byte) (c : Cpu) : Cpu := { c with s := v }
/-- `PC <- v`. -/
def Cpu.setPc (v : Addr) (c : Cpu) : Cpu := { c with pc := v }
/-- `C <- b`. -/
def Cpu.setC (b : Bool) (c : Cpu) : Cpu := { c with c := b }
/-- `Z <- b`. -/
def Cpu.setZ (b : Bool) (c : Cpu) : Cpu := { c with z := b }
/-- `I <- b`. -/
def Cpu.setI (b : Bool) (c : Cpu) : Cpu := { c with i := b }
/-- `D <- b`. -/
def Cpu.setD (b : Bool) (c : Cpu) : Cpu := { c with d := b }
/-- `V <- b`. -/
def Cpu.setV (b : Bool) (c : Cpu) : Cpu := { c with v := b }
/-- `N <- b`. -/
def Cpu.setN (b : Bool) (c : Cpu) : Cpu := { c with n := b }
/-- `cycles <- n`. -/
def Cpu.setCycles (n : Nat) (c : Cpu) : Cpu := { c with cycles := n }
/-- `cycles <- cycles + n`. -/
def Cpu.addCycles (n : Nat) (c : Cpu) : Cpu := { c with cycles := c.cycles + n }
/-- `cyc <- cyc + cycles`, the last act of a step (R101). -/
def Cpu.bank (c : Cpu) : Cpu := { c with cyc := c.cyc + c.cycles }
/-- Replace the NMI edge detector's two bits (R26). -/
def Cpu.setNmi (prev pending : Bool) (c : Cpu) : Cpu := { c with nmiPrev := prev, nmiPending := pending }
/-- `reset_pending <- b`. -/
def Cpu.setResetPending (b : Bool) (c : Cpu) : Cpu := { c with resetPending := b }
/-- `halted <- b`. -/
def Cpu.setHalted (b : Bool) (c : Cpu) : Cpu := { c with halted := b }

end Sys2Proof.Machine
end

