-- ==== Sys2Proof/Machine/Flags.lean ====
section
/-! DEFINITION. Every flag computation of files 40 to 45: `SetNZ` (00_scope.md R9), the byte `P`
(10_state.md R25), `AddWithCarry` (R179), `Compare` (R180), BIT (R178), the shifts (R196 to R199). -/

namespace Sys2Proof.Machine

/-- `SetNZ(val)`: Z from the byte being 0, N from its bit 7 (R9). -/
def Cpu.setNZ (v : Byte) (c : Cpu) : Cpu := { c with z := v == 0, n := v.msb }

/-- A flag as a bit of a byte. -/
def flagBit (b : Bool) (i : Nat) : Byte := if b then (1 : Byte) <<< i else 0

/-- The byte `P`: N V 1 0 D I Z C (R25). -/
def Cpu.p (c : Cpu) : Byte :=
  flagBit c.n 7 ||| flagBit c.v 6 ||| 0x20 ||| flagBit c.d 3 ||| flagBit c.i 2 ||| flagBit c.z 1 |||
    flagBit c.c 0

/-- The status byte as PHP and BRK push it (`b` set) or an interrupt does (`b` clear): `P | (b << 4)` (R25, R413). -/
def Cpu.pushedP (b : Bool) (c : Cpu) : Byte := c.p ||| flagBit b 4

/-- Pull a byte into `P`; bits 5 and 4 are ignored (R25). -/
def Cpu.setP (b : Byte) (c : Cpu) : Cpu :=
  { c with
    n := b.getLsbD 7, v := b.getLsbD 6, d := b.getLsbD 3, i := b.getLsbD 2, z := b.getLsbD 1
    c := b.getLsbD 0 }

/-- `sum <- A + m + C`, unbounded (R179). -/
def addSum (a m : Byte) (c : Bool) : Nat := a.toNat + m.toNat + c.toNat

/-- The overflow of R179: the operands have one sign and the result the other. -/
def addOverflow (a m r : Byte) : Bool := (~~~(a ^^^ m) &&& (a ^^^ r) &&& 0x80) != 0

/-- `AddWithCarry(m)` (R179); `D` is not read. -/
def Cpu.addWithCarry (m : Byte) (c : Cpu) : Cpu :=
  let sum := addSum c.a m c.c
  let r := BitVec.ofNat 8 sum
  { c with v := addOverflow c.a m r, c := decide (sum > 0xFF), a := r, z := r == 0, n := r.msb }

/-- `Compare(r, m)` (R180); no register changes. -/
def Cpu.compare (r m : Byte) (c : Cpu) : Cpu :=
  { c with c := decide (m.toNat ≤ r.toNat), z := r == m, n := (r - m).msb }

/-- BIT: Z from the and with A, N and V from the operand's bits 7 and 6 (R178). -/
def Cpu.bitTest (m : Byte) (c : Cpu) : Cpu :=
  { c with z := (c.a &&& m) == 0, n := m.getLsbD 7, v := m.getLsbD 6 }

/-- C, N and Z after a shift whose carry out is `k` and result `r` (R196 to R199). -/
def Cpu.shiftFlags (k : Bool) (r : Byte) (c : Cpu) : Cpu := { c with c := k, z := r == 0, n := r.msb }

/-- ASL's result: bit 0 is 0 (R196). -/
def aslResult (m : Byte) : Byte := m <<< 1

/-- LSR's result: bit 7 is 0 (R197). -/
def lsrResult (m : Byte) : Byte := m >>> 1

/-- ROL's result: the old C enters bit 0 (R198). -/
def rolResult (c : Bool) (m : Byte) : Byte := (m <<< 1) ||| flagBit c 0

/-- ROR's result: the old C enters bit 7 (R199). -/
def rorResult (c : Bool) (m : Byte) : Byte := (m >>> 1) ||| flagBit c 7

end Sys2Proof.Machine
end

