-- ==== Sys2Proof/Config.lean ====
section
/-! DEFINITION. What is fixed for the machine and is no state: `OPEN_BUS_VALUE` (00_scope.md R6),
which the spec fixes, and `SYSTEM_PALETTE`, which it does not give (92_eei_decisions.md D30). -/

namespace Sys2Proof

/-- `OPEN_BUS_VALUE`, the answer of a read nothing else answers: fixed to 0 (R6, decision D12). -/
def Config.openBus : Byte := 0

/-- `SYSTEM_PALETTE`: colour index to RGB24. A free value: the spec gives no entry of it (R6, U10, N2;
log entry 7), so no statement may rest on one. -/
opaque Config.systemPalette : BitVec 6 → BitVec 24

end Sys2Proof
end

