-- ==== Sys2Proof/Machine/Memory.lean ====
section
/-! DEFINITION. Reading and writing the sparse memories, and their canonical form: keys strictly
rising, no entry equal to what an unlisted key reads as. Power-on memories read 0 everywhere
(10_state.md R49), so that is the value of an unlisted address. -/

namespace Sys2Proof

section
variable {α : Type}

/-- The value at key `a`: the first entry with that key, or the default `d`. -/
def Sparse.get (d : α) : Sparse α → Nat → α
  | [], _ => d
  | (k, v) :: m, a => if k = a then v else Sparse.get d m a

/-- Drop every entry with key `a`. -/
def Sparse.erase (a : Nat) : Sparse α → Sparse α
  | [] => []
  | (k, v) :: m => if k = a then Sparse.erase a m else (k, v) :: Sparse.erase a m

/-- Insert an entry before the first larger key. -/
def Sparse.insert (a : Nat) (v : α) : Sparse α → Sparse α
  | [] => [(a, v)]
  | (k, w) :: m => if a < k then (a, v) :: (k, w) :: m else (k, w) :: Sparse.insert a v m

/-- Write `v` at key `a`; writing the default `d` removes the entry. -/
def Sparse.set [DecidableEq α] (d : α) (m : Sparse α) (a : Nat) (v : α) : Sparse α :=
  if v = d then Sparse.erase a m else Sparse.insert a v (Sparse.erase a m)

/-- The canonical form, with every key below `bound`. -/
def Sparse.wf [DecidableEq α] (d : α) (bound : Nat) : Sparse α → Bool
  | [] => true
  | (k, v) :: m =>
    decide (v ≠ d) && decide (k < bound) && m.all (fun e => decide (k < e.1)) &&
      Sparse.wf d bound m

end

/-- One cell. -/
def Memory.read {w : Nat} (m : Memory w) (a : Nat) : BitVec w := Sparse.get 0 m a

/-- Write one cell. -/
def Memory.write {w : Nat} (m : Memory w) (a : Nat) (v : BitVec w) : Memory w := Sparse.set 0 m a v

/-- The canonical form of a memory of `size` cells. -/
def Memory.wf {w : Nat} (size : Nat) (m : Memory w) : Bool := Sparse.wf 0 size m

/-- A memory holding the list of bytes from address `a` up. -/
def Memory.ofBytes {w : Nat} : Nat → List (BitVec w) → Memory w
  | _, [] => []
  | a, v :: vs => if v = 0 then Memory.ofBytes (a + 1) vs else (a, v) :: Memory.ofBytes (a + 1) vs

/-- The pixel at column `x` of row `y`. -/
def FrameBuffer.pixel (f : FrameBuffer) (x y : Nat) : BitVec 6 := (Sparse.get [] f y : Memory 6).read x

/-- Write one pixel. -/
def FrameBuffer.setPixel (f : FrameBuffer) (x y : Nat) (c : BitVec 6) : FrameBuffer :=
  Sparse.set [] f y (Memory.write (Sparse.get [] f y) x c)

/-- The canonical form of a raster: rows 0 to 239, each a canonical row of 256 columns. -/
def FrameBuffer.wf (f : FrameBuffer) : Bool :=
  Sparse.wf [] 240 f && f.all (fun r => Memory.wf 256 r.2)

end Sys2Proof
end

