-- ==== Sys2Proof/Machine/Mapper.lean ====
section
/-! DEFINITION. The mapper's five capabilities for NROM and MMC1 (48_cartridge_mappers.md R340 to R357). -/

namespace Sys2Proof.Machine

/-- The length of the PRG image in bytes (R6). -/
def Cartridge.prgLen (c : Cartridge) : Nat := c.prgBanks * 16384

/-- Whether the cartridge has CHR-RAM (R47). -/
def Cartridge.hasChrRam (c : Cartridge) : Bool := c.chrBanks == 0

/-- The length of the CHR memory: CHR-ROM, or 8 KiB of CHR-RAM (R6). -/
def Cartridge.chrLen (c : Cartridge) : Nat := if c.hasChrRam then 8192 else c.chrBanks * 8192

/-- The 16 KiB bank MMC1 shows at `$8000-$BFFF` (R353). -/
def Board.mmc1BankLow (b : Board) : Nat :=
  match (b.mmc1.control.toNat / 4) % 4 with
  | 2 => 0
  | 3 => b.mmc1.prg.toNat % 16
  | _ => (b.mmc1.prg.toNat % 16) / 2 * 2

/-- The 16 KiB bank MMC1 shows at `$C000-$FFFF` (R353). -/
def Board.mmc1BankHigh (b : Board) : Nat :=
  match (b.mmc1.control.toNat / 4) % 4 with
  | 2 => b.mmc1.prg.toNat % 16
  | 3 => b.cart.prgBanks - 1
  | _ => (b.mmc1.prg.toNat % 16) / 2 * 2 + 1

/-- The index into PRG of a CPU address in `$8000-$FFFF` (R343, R353), reduced by the image's length (R357).
For an NROM image of more than two banks R343 and R452 differ on the vectors: R343's formula is taken
(DESIGN CHOICE, log entry 13). An MMC1 image of more than 16 banks follows R353 as it stands (DESIGN CHOICE,
log entry 14). -/
def Board.prgIndex (b : Board) (a : Addr) : Nat :=
  match b.cart.mapper with
  | .nrom => (a.toNat - 0x8000) % b.cart.prgLen
  | .mmc1 =>
    ((if a.toNat < 0xC000 then b.mmc1BankLow else b.mmc1BankHigh) * 16384 + a.toNat % 0x4000) %
      b.cart.prgLen

/-- `cpu_read(addr)` for `$4020-$FFFF` (R70, R343, R353): no side effect. -/
def Board.cpuRead (b : Board) (a : Addr) : Byte :=
  if a.toNat < 0x6000 then Config.openBus
  else if a.toNat < 0x8000 then
    match b.cart.mapper with
    | .nrom => Config.openBus
    | .mmc1 => b.prgRam.read (a.toNat - 0x6000)
  else b.cart.prg.read (b.prgIndex a)

/-- `Mmc1Commit(addr, r)`: bits 14 and 13 of the address choose the register (R352). -/
def Mmc1.commit (a : Addr) (r : BitVec 5) (m : Mmc1) : Mmc1 :=
  match (a.toNat / 0x2000) % 4 with
  | 0 => { m with control := r }
  | 1 => { m with chr0 := r }
  | 2 => { m with chr1 := r }
  | _ => { m with prg := r }

/-- `Mmc1Serial(addr, val)` (R350): a reset write, or one bit shifted in and, with the fifth, a commit. -/
def Mmc1.serial (a : Addr) (val : Byte) (m : Mmc1) : Mmc1 :=
  if val.getLsbD 7 then { m with shift := 0, count := 0, control := m.control ||| 0x0C }
  else
    let sh := (m.shift >>> 1) ||| ((val.setWidth 5 &&& 1) <<< 4)
    if m.count + 1 = 5 then { (m.commit a sh) with shift := 0, count := 0 }
    else { m with shift := sh, count := m.count + 1 }

/-- `cpu_write(addr, val)` for `$4020-$FFFF` (R70, R344, R354): NROM ignores it, MMC1 stores in
PRG-RAM or drives the serial port. -/
def Board.cpuWrite (b : Board) (a : Addr) (val : Byte) : Board :=
  match b.cart.mapper with
  | .nrom => b
  | .mmc1 =>
    if a.toNat < 0x6000 then b
    else if a.toNat < 0x8000 then { b with prgRam := b.prgRam.write (a.toNat - 0x6000) val }
    else { b with mmc1 := b.mmc1.serial a val }

/-- The 4 KiB CHR page MMC1 shows for a pattern-table address (R355). -/
def Board.mmc1ChrPage (b : Board) (a : PpuAddr) : Nat :=
  if b.mmc1.control.getLsbD 4 then
    if a.toNat < 0x1000 then b.mmc1.chr0.toNat else b.mmc1.chr1.toNat
  else b.mmc1.chr0.toNat / 2 * 2 + a.toNat / 0x1000

/-- The index into the CHR memory of a pattern-table address (R346, R355, R357). -/
def Board.chrIndex (b : Board) (a : PpuAddr) : Nat :=
  match b.cart.mapper with
  | .nrom => a.toNat
  | .mmc1 => (b.mmc1ChrPage a * 4096 + a.toNat % 0x1000) % b.cart.chrLen

/-- `ppu_read(a)` for `a < $2000` (R346, R355): no side effect. -/
def Board.ppuRead (b : Board) (a : PpuAddr) : Byte :=
  if b.cart.hasChrRam then b.chrRam.read (b.chrIndex a) else b.cart.chr.read (b.chrIndex a)

/-- `ppu_write(a, val)` for `a < $2000`: stores in CHR-RAM, ignored for CHR-ROM (R346, R355). -/
def Board.ppuWrite (b : Board) (a : PpuAddr) (val : Byte) : Board :=
  if b.cart.hasChrRam then { b with chrRam := b.chrRam.write (b.chrIndex a) val } else b

/-- `mirroring()`: the header's for NROM (R345), control bits 1:0 for MMC1 (R356). -/
def Board.mirroring (b : Board) : Mirroring :=
  match b.cart.mapper with
  | .nrom =>
    match b.cart.hdrMirroring with
    | .horizontal => .horizontal
    | .vertical => .vertical
  | .mmc1 =>
    match b.mmc1.control.toNat % 4 with
    | 0 => .singleLo
    | 1 => .singleHi
    | 2 => .vertical
    | _ => .horizontal

end Sys2Proof.Machine
end

