-- ==== Sys2Proof/Machine/PpuBus.lean ====
section
/-! DEFINITION. The PPU side of the bus: nametable and palette mirroring, `PpuRead`, `PpuWrite`
(20_memory.md R84 to R88). -/

namespace Sys2Proof.Machine

/-- The physical 1 KiB page of logical nametable `table` (R86). -/
def ntPage (m : Mirroring) (table : Nat) : Nat :=
  match m with
  | .horizontal => table / 2
  | .vertical => table % 2
  | .singleLo => 0
  | .singleHi => 1

/-- `NtIndex(a)`: bits 13:12 are ignored, 11:10 choose the table (R86). -/
def ntIndex (m : Mirroring) (a : PpuAddr) : Nat :=
  ntPage m ((a.toNat / 1024) % 4) * 1024 + a.toNat % 1024

/-- `PalIndex(i)`: `$10, $14, $18, $1C` have the storage of `$00, $04, $08, $0C` (R87). -/
def palIndex (i : BitVec 5) : BitVec 5 := if i &&& 0x13 = 0x10 then i &&& 0x0F else i

/-- The palette cell of a PPU address in `$3F00-$3FFF`: `PalIndex(a & $1F)`. -/
def palCell (a : PpuAddr) : Nat := (palIndex (a.setWidth 5)).toNat

/-- `PpuRead(a)` (R84). -/
def ppuRead (b : Board) (p : Ppu) (a : PpuAddr) : Byte :=
  if a.toNat < 0x2000 then b.ppuRead a
  else if a.toNat < 0x3F00 then p.ntRam.read (ntIndex b.mirroring a)
  else (p.palette.read (palCell a)).setWidth 8

/-- `PpuWrite(a, val)` (R85): the board's share. -/
def ppuWriteBoard (b : Board) (a : PpuAddr) (val : Byte) : Board :=
  if a.toNat < 0x2000 then b.ppuWrite a val else b

/-- `PpuWrite(a, val)` (R85): the PPU's share, nametable RAM or palette RAM. -/
def ppuWriteRam (b : Board) (p : Ppu) (a : PpuAddr) (val : Byte) : Ppu :=
  if a.toNat < 0x2000 then p
  else if a.toNat < 0x3F00 then { p with ntRam := p.ntRam.write (ntIndex b.mirroring a) val }
  else { p with palette := p.palette.write (palCell a) (val.setWidth 6) }

end Sys2Proof.Machine
end

