-- ==== Sys2Proof/Machine/PpuPorts.lean ====
section
/-! DEFINITION. The eight CPU-visible PPU register ports (46_ppu_registers.md R250 to R268). -/

namespace Sys2Proof.Machine

/-- Rendering enabled: background or sprite enable is 1 (R253). -/
def Ppu.rendering (p : Ppu) : Bool := p.mask.getLsbD 3 || p.mask.getLsbD 4

/-- A render line: 0 to 239, or 261 (R11, R290). -/
def renderLine (s : Nat) : Bool := decide (s ≤ 239) || s == 261

/-- Rendering in progress (R259). -/
def Ppu.renderingInProgress (p : Ppu) : Bool := p.rendering && renderLine p.scanline

/-- `nmi_out`: PPUCTRL[7] and vblank, combinational (R258). -/
def Ppu.nmiOut (p : Ppu) : Bool := p.ctrl.getLsbD 7 && p.vblank

/-- The address an access through `v` puts on the bus: `v & $3FFF` (R88). -/
def Ppu.busAddr (p : Ppu) : PpuAddr := p.v.setWidth 14

/-- `IncV()`: by 1, or by 32 when PPUCTRL[2] is set, modulo 2^15 (R267). -/
def Ppu.incV (p : Ppu) : Ppu := { p with v := p.v + (if p.ctrl.getLsbD 2 then 32 else 1) }

/-- The byte a `$2002` read returns (R254). -/
def Ppu.statusByte (p : Ppu) : Byte :=
  (if p.vblank then 0x80 else 0) ||| (if p.spr0Hit then 0x40 else 0) |||
    (if p.sprOverflow then 0x20 else 0) ||| (p.ioLatch &&& 0x1F)

/-- The byte a `$2007` read returns: the buffer, or the palette entry itself (R266). -/
def Ppu.dataByte (b : Board) (p : Ppu) : Byte :=
  if p.busAddr.toNat < 0x3F00 then p.readBuffer else ppuRead b p p.busAddr

/-- What a `$2007` read puts in the buffer: the byte at the address, or the nametable byte under the
palette, at `a - $1000` (R266). -/
def Ppu.dataFill (b : Board) (p : Ppu) : Byte :=
  if p.busAddr.toNat < 0x3F00 then ppuRead b p p.busAddr else ppuRead b p (p.busAddr - 0x1000)

/-- The byte `PpuRegRead(r)` returns (R250, R251, R254, R261, R266). -/
def Ppu.portByte (b : Board) (r : Nat) (p : Ppu) : Byte :=
  match r with
  | 2 => p.statusByte
  | 4 => p.oam.read p.oamAddr.toNat
  | 7 => p.dataByte b
  | _ => p.ioLatch

/-- The PPU after `PpuRegRead(r)`: the port's own effect, then `io_latch <- d` (R251). -/
def Ppu.afterPortRead (b : Board) (r : Nat) (p : Ppu) : Ppu :=
  let d := p.portByte b r
  match r with
  | 2 => { p with vblank := false, w := false, ioLatch := d }
  | 7 => { p.incV with readBuffer := p.dataFill b, ioLatch := d }
  | _ => { p with ioLatch := d }

/-- PPUCTRL write: the byte is kept and its low two bits go to `t[11:10]` (R252). -/
def Ppu.writeCtrl (val : Byte) (p : Ppu) : Ppu :=
  { p with ctrl := val, t := (p.t &&& 0x73FF#15) ||| ((val &&& 3).setWidth 15 <<< 10) }

/-- OAMDATA write: discarded while rendering is in progress, else stored, and OAMADDR advances (R262). -/
def Ppu.writeOamData (val : Byte) (p : Ppu) : Ppu :=
  if p.renderingInProgress then p
  else { p with oam := p.oam.write p.oamAddr.toNat val, oamAddr := p.oamAddr + 1 }

/-- PPUSCROLL write: coarse X and fine X first, fine Y and coarse Y second (R263). -/
def Ppu.writeScroll (val : Byte) (p : Ppu) : Ppu :=
  if p.w then
    { p with
      t := (p.t &&& 0x0C1F#15) ||| ((val &&& 0x07).setWidth 15 <<< 12) ||| ((val &&& 0xF8).setWidth 15 <<< 2)
      w := false }
  else
    { p with t := (p.t &&& 0x7FE0#15) ||| (val >>> 3).setWidth 15, fineX := val.setWidth 3, w := true }

/-- PPUADDR write: the high six bits of `t` first (bit 14 cleared), the low eight second, then
`v <- t` (R264). -/
def Ppu.writeAddr (val : Byte) (p : Ppu) : Ppu :=
  if p.w then
    let t := (p.t &&& 0x7F00#15) ||| val.setWidth 15
    { p with t := t, v := t, w := false }
  else { p with t := (p.t &&& 0x00FF#15) ||| ((val &&& 0x3F).setWidth 15 <<< 8), w := true }

/-- PPUDATA write: `PpuWrite(v & $3FFF, val); IncV()`, the PPU's share (R265). -/
def Ppu.writeData (b : Board) (val : Byte) (p : Ppu) : Ppu := (ppuWriteRam b p p.busAddr val).incV

/-- The PPU after `PpuRegWrite(r, val)`: `io_latch <- val`, then the port's effect (R250, R251). -/
def Ppu.afterPortWrite (b : Board) (r : Nat) (val : Byte) (p : Ppu) : Ppu :=
  let p := { p with ioLatch := val }
  match r with
  | 0 => p.writeCtrl val
  | 1 => { p with mask := val }
  | 3 => { p with oamAddr := val }
  | 4 => p.writeOamData val
  | 5 => p.writeScroll val
  | 6 => p.writeAddr val
  | 7 => p.writeData b val
  | _ => p

/-- The board after `PpuRegWrite(r, val)`: only PPUDATA reaches it (R265). -/
def Ppu.boardAfterPortWrite (b : Board) (r : Nat) (val : Byte) (p : Ppu) : Board :=
  match r with
  | 7 => ppuWriteBoard b p.busAddr val
  | _ => b

end Sys2Proof.Machine
end

