-- ==== Sys2Proof/Machine/PpuRender.lean ====
section
/-! DEFINITION. The PPU's dot and scanline state machine (47_ppu_rendering.md R290 to R334): one
`tick` is one dot. A tick reads the board and changes the PPU only. -/

namespace Sys2Proof.Machine

/-- A visible scanline, 0 to 239 (R290). -/
def visibleLine (s : Nat) : Bool := decide (s ≤ 239)

/-! ## Background -/

/-- Nametable fetch address `$2000 | (v & $0FFF)` (R301). -/
def Ppu.ntAddr (p : Ppu) : PpuAddr := 0x2000#14 ||| (p.v &&& 0x0FFF).setWidth 14

/-- Attribute fetch address (R302). -/
def Ppu.atAddr (p : Ppu) : PpuAddr :=
  0x23C0#14 ||| (p.v &&& 0x0C00).setWidth 14 ||| ((p.v >>> 4) &&& 0x38).setWidth 14 |||
    ((p.v >>> 2) &&& 0x07).setWidth 14

/-- The two attribute bits of the tile at `v`, from the attribute byte (R302). -/
def Ppu.atSelect (p : Ppu) (b : Byte) : BitVec 2 :=
  (b >>> (((p.v >>> 4) &&& 4) ||| (p.v &&& 2)).toNat).setWidth 2

/-- Pattern fetch address, low plane (R303). -/
def Ppu.patAddr (p : Ppu) : PpuAddr :=
  (if p.ctrl.getLsbD 4 then 0x1000 else 0) ||| (p.ntByte.setWidth 14 <<< 4) |||
    (p.v >>> 12).setWidth 14

/-- `IncCoarseX()` (R304). -/
def incCoarseX (v : Vram) : Vram :=
  if v &&& 0x001F = 31 then (v &&& ~~~(0x001F : Vram)) ^^^ 0x0400 else v + 1

/-- `IncFineY()` (R305). -/
def incFineY (v : Vram) : Vram :=
  if v &&& 0x7000 ≠ 0x7000 then v + 0x1000
  else
    let v := v &&& ~~~(0x7000 : Vram)
    let y := (v &&& 0x03E0) >>> 5
    if y = 29 then (v ^^^ 0x0800) &&& ~~~(0x03E0 : Vram)
    else if y = 31 then v &&& ~~~(0x03E0 : Vram)
    else (v &&& ~~~(0x03E0 : Vram)) ||| ((y + 1) <<< 5)

/-- `CopyHorizontal()` (R306). -/
def copyHorizontal (v t : Vram) : Vram := (v &&& ~~~(0x041F : Vram)) ||| (t &&& 0x041F)

/-- `CopyVertical()` (R307). -/
def copyVertical (v t : Vram) : Vram := (v &&& ~~~(0x7BE0 : Vram)) ||| (t &&& 0x7BE0)

/-- A bit as the low bit of a byte. -/
def lowBit (b : Bool) : Byte := if b then 1 else 0

/-- `ShiftBackground()` (R308). -/
def Ppu.shiftBackground (p : Ppu) : Ppu :=
  { p with
    bgLo := p.bgLo <<< 1, bgHi := p.bgHi <<< 1
    atLo := (p.atLo <<< 1) ||| lowBit p.atLatchLo, atHi := (p.atHi <<< 1) ||| lowBit p.atLatchHi }

/-- `ReloadShifters()` (R308). -/
def Ppu.reloadShifters (p : Ppu) : Ppu :=
  { p with
    bgLo := (p.bgLo &&& 0xFF00) ||| p.ptLo.setWidth 16
    bgHi := (p.bgHi &&& 0xFF00) ||| p.ptHi.setWidth 16
    atLatchLo := p.atBits.getLsbD 0, atLatchHi := p.atBits.getLsbD 1 }

/-- `BackgroundFetchStep(d)` by the phase `(d - 1) mod 8` (R300). -/
def Ppu.backgroundFetch (b : Board) (d : Nat) (p : Ppu) : Ppu :=
  match (d - 1) % 8 with
  | 1 => { p with ntByte := ppuRead b p p.ntAddr }
  | 3 => { p with atBits := p.atSelect (ppuRead b p p.atAddr) }
  | 5 => { p with ptLo := ppuRead b p p.patAddr }
  | 7 =>
    let q := { p with ptHi := ppuRead b p (p.patAddr + 8) }.reloadShifters
    { q with v := incCoarseX q.v }
  | _ => p

/-- Two bits from a high and a low plane. -/
def planes (hi lo : Bool) : BitVec 2 := BitVec.ofBool hi ++ BitVec.ofBool lo

/-- `bgpix` at column `x` (R310): 0 when the background is off or clipped there. -/
def Ppu.bgPixel (x : Nat) (p : Ppu) : BitVec 2 :=
  if !p.mask.getLsbD 3 || (decide (x < 8) && !p.mask.getLsbD 1) then 0
  else planes (p.bgHi.getLsbD (15 - p.fineX.toNat)) (p.bgLo.getLsbD (15 - p.fineX.toNat))

/-- `bgpal` (R310). -/
def Ppu.bgPalette (p : Ppu) : BitVec 2 :=
  planes (p.atHi.getLsbD (7 - p.fineX.toNat)) (p.atLo.getLsbD (7 - p.fineX.toNat))

/-! ## Sprites -/

/-- Sprite height `H`: 16 when PPUCTRL[5] is set, else 8 (R316, R320). -/
def Ppu.spriteHeight (p : Ppu) : Nat := if p.ctrl.getLsbD 5 then 16 else 8

/-- Sprite `n` covers the line after `s`: `0 <= s - oam[4n] < H` (R316). -/
def Ppu.inRange (s : Nat) (p : Ppu) (n : Nat) : Bool :=
  decide ((p.oam.read (4 * n)).toNat ≤ s) && decide (s < (p.oam.read (4 * n)).toNat + p.spriteHeight)

/-- The sprites that cover the line after `s`, in OAM order (R316). -/
def Ppu.spritesInRange (s : Nat) (p : Ppu) : List Nat := (List.range 64).filter (p.inRange s)

/-- Copy sprite `n` of primary OAM to entry `k` of secondary OAM (R316). -/
def Ppu.copySprite (n k : Nat) (p : Ppu) : Ppu :=
  { p with
    secOam :=
      (((p.secOam.write (4 * k) (p.oam.read (4 * n))).write (4 * k + 1) (p.oam.read (4 * n + 1))).write
        (4 * k + 2) (p.oam.read (4 * n + 2))).write (4 * k + 3) (p.oam.read (4 * n + 3)) }

/-- Copy the listed sprites to secondary OAM from entry `k` up. -/
def Ppu.copySprites : List Nat → Nat → Ppu → Ppu
  | [], _, p => p
  | n :: ns, k, p => Ppu.copySprites ns (k + 1) (p.copySprite n k)

/-- `EvaluateSprites(s)` (R316, R322): the first eight sprites in range go to secondary OAM, and a
ninth sets `spr_overflow`. The scan of R316 stops at the ninth, so this is its result. -/
def Ppu.evaluateSprites (s : Nat) (p : Ppu) : Ppu :=
  let found := p.spritesInRange s
  let q := Ppu.copySprites (found.take 8) 0 p
  { q with
    sprOverflow := p.sprOverflow || decide (8 < found.length)
    secCount := (found.take 8).length
    secHasSpr0 := p.inRange s 0 }

/-- On the pre-render line secondary OAM is marked empty (R290, R316). -/
def Ppu.clearSecondary (p : Ppu) : Ppu := { p with secCount := 0, secHasSpr0 := false }

/-- The sprite's row on the line after `s`: `(s - Y) & (H - 1)`, flipped by `attr[7]` (R320). -/
def Ppu.spriteRow (s : Nat) (y attr : Byte) (p : Ppu) : BitVec 14 :=
  let h : BitVec 14 := BitVec.ofNat 14 p.spriteHeight
  let row := (BitVec.ofNat 14 s - y.setWidth 14) &&& (h - 1)
  if attr.getLsbD 7 then h - 1 - row else row

/-- `SpritePatAddr(s, Y, tile, attr)` (R320). -/
def Ppu.spritePatAddr (s : Nat) (y tile attr : Byte) (p : Ppu) : PpuAddr :=
  let row := p.spriteRow s y attr
  if p.ctrl.getLsbD 5 then
    ((tile &&& 1).setWidth 14 <<< 12) ||| ((tile &&& 0xFE).setWidth 14 <<< 4) |||
      ((row &&& 8) <<< 1) ||| (row &&& 7)
  else (if p.ctrl.getLsbD 3 then 0x1000 else 0) ||| (tile.setWidth 14 <<< 4) ||| row

/-- The eight bits of a byte in reverse order (R319). -/
def bitrev8 (b : Byte) : Byte := b.reverse

/-- `SpriteFetchStep(s, d)` (R319): slot `(d - 257) / 8`, acting at phases 5 and 7. -/
def Ppu.spriteFetch (b : Board) (s d : Nat) (p : Ppu) : Ppu :=
  let i := (d - 257) / 8
  let y := p.secOam.read (4 * i)
  let tile := p.secOam.read (4 * i + 1)
  let attr := p.secOam.read (4 * i + 2)
  let x := p.secOam.read (4 * i + 3)
  let addr := p.spritePatAddr s y tile attr
  match (d - 257) % 8 with
  | 5 => if i < p.secCount then { p with tmpLo := ppuRead b p addr } else p
  | 7 =>
    let q :=
      if i < p.secCount then
        let hi := ppuRead b p (addr + 8)
        let lo := if attr.getLsbD 6 then bitrev8 p.tmpLo else p.tmpLo
        let hi := if attr.getLsbD 6 then bitrev8 hi else hi
        { p with tmpLo := lo, units := p.units.set i { patLo := lo, patHi := hi, attr := attr, xcnt := x } }
      else { p with units := p.units.set i SpriteUnit.empty }
    if i = 0 then { q with unitsHaveSpr0 := p.secHasSpr0 } else q
  | _ => p

/-- The pixel an active unit offers: 0 while its X counter runs (R321). -/
def SpriteUnit.pixel (u : SpriteUnit) : BitVec 2 :=
  if u.xcnt = 0 then planes (u.patHi.getLsbD 7) (u.patLo.getLsbD 7) else 0

/-- A unit's advance after a pixel (R321). -/
def SpriteUnit.advance (u : SpriteUnit) : SpriteUnit :=
  if u.xcnt = 0 then { u with patLo := u.patLo <<< 1, patHi := u.patHi <<< 1 }
  else { u with xcnt := u.xcnt - 1 }

/-- The first unit, counting from number `i`, whose pixel is opaque (R321). -/
def firstOpaque : Nat → List SpriteUnit → Option (Nat × SpriteUnit)
  | _, [] => none
  | i, u :: us => if u.pixel ≠ 0 then some (i, u) else firstOpaque (i + 1) us

/-- What the sprite units offer at one pixel (R321): `sprpix`, `sprpal`, `sprbehind`, `from_unit0`. -/
structure SpritePixel where
  pix : BitVec 2
  pal : BitVec 2
  behind : Bool
  fromUnit0 : Bool
  deriving DecidableEq, Repr

/-- The sprite pixel at column `x` (R321): 0 when sprites are off or clipped there, or no unit is opaque. -/
def Ppu.spritePixel (x : Nat) (p : Ppu) : SpritePixel :=
  if !p.mask.getLsbD 4 || (decide (x < 8) && !p.mask.getLsbD 2) then ⟨0, 0, false, false⟩
  else
    match firstOpaque 0 p.units with
    | none => ⟨0, 0, false, false⟩
    | some (i, u) => ⟨u.pixel, u.attr.setWidth 2, u.attr.getLsbD 5, i == 0⟩

/-! ## Pixel output -/

/-- The 5-bit palette index of a pixel (R324). -/
def pixelIndex (bg bgPal : BitVec 2) (sp : SpritePixel) : BitVec 5 :=
  if sp.pix ≠ 0 ∧ (bg = 0 ∨ sp.behind = false) then (1 : BitVec 1) ++ sp.pal ++ sp.pix
  else if bg ≠ 0 then (0 : BitVec 1) ++ bgPal ++ bg
  else 0

/-- `Colour(idx)` (R325). -/
def Ppu.colour (idx : BitVec 5) (p : Ppu) : BitVec 6 :=
  let c := p.palette.read (palIndex idx).toNat
  if p.mask.getLsbD 0 then c &&& 0x30 else c

/-- Whether the pixel at column `x` is a sprite-0 hit (R328). -/
def Ppu.sprite0Hits (x : Nat) (p : Ppu) : Bool :=
  p.bgPixel x != 0 && (p.spritePixel x).pix != 0 && (p.spritePixel x).fromUnit0 && p.unitsHaveSpr0 &&
    decide (x + 1 ≤ 255)

/-- `EmitPixel(xcol, y)` (R323): sprite-0 hit, the pixel, and the units' advance. -/
def Ppu.emitPixel (x y : Nat) (p : Ppu) : Ppu :=
  { p with
    spr0Hit := p.spr0Hit || p.sprite0Hits x
    framebuffer :=
      p.framebuffer.setPixel x y (p.colour (pixelIndex (p.bgPixel x) p.bgPalette (p.spritePixel x)))
    units := p.units.map SpriteUnit.advance }

/-- `EmitBackdrop(xcol, y)` (R326). -/
def Ppu.emitBackdrop (x y : Nat) (p : Ppu) : Ppu :=
  { p with framebuffer := p.framebuffer.setPixel x y (p.colour 0) }

/-! ## The tick -/

/-- Dots 1 to 256 and 321 to 336: shift, then fetch (R290). -/
def Ppu.backgroundDot (b : Board) (d : Nat) (p : Ppu) : Ppu :=
  if (1 ≤ d ∧ d ≤ 256) ∨ (321 ≤ d ∧ d ≤ 336) then p.shiftBackground.backgroundFetch b d else p

/-- Dot 256's fine-Y increment, dot 257's horizontal copy and sprite evaluation (R290). -/
def Ppu.lineEndDot (s d : Nat) (p : Ppu) : Ppu :=
  if d = 256 then { p with v := incFineY p.v }
  else if d = 257 then
    let q := { p with v := copyHorizontal p.v p.t }
    if visibleLine s then q.evaluateSprites s else q.clearSecondary
  else p

/-- Dots 257 to 320: OAMADDR forced to 0 and a sprite fetch step (R290, R318). -/
def Ppu.spriteDot (b : Board) (s d : Nat) (p : Ppu) : Ppu :=
  if 257 ≤ d ∧ d ≤ 320 then { p with oamAddr := 0 }.spriteFetch b s d else p

/-- Dots 280 to 304 of line 261: the vertical copy (R290, R307). -/
def Ppu.verticalDot (s d : Nat) (p : Ppu) : Ppu :=
  if s = 261 ∧ 280 ≤ d ∧ d ≤ 304 then { p with v := copyVertical p.v p.t } else p

/-- A dot of a render line with rendering enabled (R290). The reads of dots 338 and 340 have no
effect with mappers 0 and 1 (R309). -/
def Ppu.renderDot (b : Board) (s d : Nat) (p : Ppu) : Ppu :=
  let p := if visibleLine s = true ∧ 1 ≤ d ∧ d ≤ 256 then p.emitPixel (d - 1) s else p
  (((p.backgroundDot b d).lineEndDot s d).spriteDot b s d).verticalDot s d

/-- The flags set at `(241, 1)` and cleared at `(261, 1)` (R296, R297). -/
def Ppu.flagDot (s d : Nat) (p : Ppu) : Ppu :=
  if s = 241 ∧ d = 1 then { p with vblank := true }
  else if s = 261 ∧ d = 1 then { p with vblank := false, spr0Hit := false, sprOverflow := false }
  else p

/-- The actions of the position `(s, d)`, in order (R290). -/
def Ppu.dotActions (b : Board) (s d : Nat) (p : Ppu) : Ppu :=
  let p := p.flagDot s d
  if renderLine s = true ∧ p.rendering = true then p.renderDot b s d
  else if visibleLine s = true ∧ 1 ≤ d ∧ d ≤ 256 then p.emitBackdrop (d - 1) s
  else p

/-- Whether the tick at this position ends the frame: dot 340 of line 261, or dot 339 of it on an odd
frame with rendering enabled (R291). -/
def Ppu.frameEnds (p : Ppu) : Bool :=
  p.scanline == 261 && (p.dot == 340 || (p.dot == 339 && p.oddFrame && p.rendering))

/-- The position after `(s, d)`, the frame ending or not, with `odd_frame` toggled at a frame's end
(R291, R292). -/
def Ppu.advance (ends : Bool) (p : Ppu) : Ppu :=
  if ends then { p with scanline := 0, dot := 0, oddFrame := !p.oddFrame }
  else if p.dot = 340 then { p with scanline := p.scanline + 1, dot := 0 }
  else { p with dot := p.dot + 1 }

/-- `tick()` (R290). -/
def Ppu.tick (b : Board) (p : Ppu) : Ppu :=
  (p.dotActions b p.scanline p.dot).advance p.frameEnds

end Sys2Proof.Machine
end

