-- ==== Sys2Proof/Machine/Ops.lean ====
section
/-! DEFINITION. The operations over the whole state that everything else is written with: the CPU
bus (20_memory.md R61, R62), OAM DMA (R390, R391), the stack (R160, R161), the NMI edge detector
(R415), taking an interrupt (R413), returning from one (R239), RESET (R417), and the clock (R395). -/

namespace Sys2Proof.Machine

/-! ## The bus -/

/-- `ObserveNmi()` (R415): a rise of `nmi_out` sets `nmi_pending`. -/
def observeNmi (s : State) : State :=
  s.mapCpu (fun c => c.setNmi s.ppu.nmiOut (c.nmiPending || (s.ppu.nmiOut && !c.nmiPrev)))

/-- The PPU port of a CPU address in `$2000-$3FFF`: `addr & 7` (R61, R64). -/
def portOf (a : Addr) : Nat := a.toNat % 8

/-- The work RAM cell of a CPU address below `$2000`: `addr & $07FF` (R61, R63). -/
def ramCell (a : Addr) : Nat := a.toNat % 0x800

/-- The byte `MemRead(addr, 1)` returns (R61). -/
def busByte (a : Addr) (s : State) : Byte :=
  if a.toNat < 0x2000 then s.ram.read (ramCell a)
  else if a.toNat < 0x4000 then s.ppu.portByte s.board (portOf a)
  else if a = 0x4016#16 then ctlByte s.ctl.strobe s.ports.buttons0 s.ctl.shift0
  else if a = 0x4017#16 then ctlByte s.ctl.strobe s.ports.buttons1 s.ctl.shift1
  else if a.toNat < 0x4016 then 0
  else if a.toNat < 0x4020 then Config.openBus
  else s.board.cpuRead a

/-- The state after `MemRead(addr, 1)`: the read's side effect (R61, R76). -/
def afterRead (a : Addr) (s : State) : State :=
  if a.toNat < 0x2000 then s
  else if a.toNat < 0x4000 then observeNmi (s.setPpu (s.ppu.afterPortRead s.board (portOf a)))
  else if a = 0x4016#16 then s.setCtl s.ctl.afterRead0
  else if a = 0x4017#16 then s.setCtl s.ctl.afterRead1
  else s

/-- `MemRead(addr, 1)`: the byte, and the state with the read's side effect. -/
def memRead (a : Addr) (s : State) : Byte × State := (busByte a s, afterRead a s)

/-- `MemRead16(addr)`: low byte first (R9). -/
def memRead16 (a : Addr) (s : State) : Addr × State :=
  let lo := memRead a s
  let hi := memRead (a + 1) lo.2
  (abs16 lo.1 hi.1, hi.2)

/-- One byte of OAM DMA: `oam[u8(OAMADDR + i)] <- MemRead((val << 8) | i)` (R390). -/
def dmaByte (val : Byte) (i : Nat) (s : State) : State :=
  let r := memRead (abs16 (BitVec.ofNat 8 i) val) s
  let p := r.2.ppu
  r.2.setPpu { p with oam := p.oam.write (p.oamAddr + BitVec.ofNat 8 i).toNat r.1 }

/-- Bytes `i` to `i + n - 1` of OAM DMA, in order. -/
def dmaCopy (val : Byte) : Nat → Nat → State → State
  | 0, _, s => s
  | n + 1, i, s => dmaCopy val n (i + 1) (dmaByte val i s)

/-- `DmaStall()`: 514 when `cyc + cycles` is odd, else 513 (R391). -/
def dmaStall (c : Cpu) : Nat := if (c.cyc + c.cycles) % 2 = 1 then 514 else 513

/-- `OamDma(val)`: 256 bytes, then the stall (R390). -/
def oamDma (val : Byte) (s : State) : State :=
  (dmaCopy val 256 0 s).mapCpu (fun c => c.addCycles (dmaStall c))

/-- `MemWrite(addr, 1, val)` (R62). -/
def memWrite (a : Addr) (val : Byte) (s : State) : State :=
  if a.toNat < 0x2000 then s.setRam (s.ram.write (ramCell a) val)
  else if a.toNat < 0x4000 then
    observeNmi
      ((s.setBoard (s.ppu.boardAfterPortWrite s.board (portOf a) val)).setPpu
        (s.ppu.afterPortWrite s.board (portOf a) val))
  else if a = 0x4014#16 then oamDma val s
  else if a = 0x4016#16 then s.setCtl (Controllers.write val s.ports)
  else if a.toNat < 0x4020 then s
  else s.setBoard (s.board.cpuWrite a val)

/-! ## The stack -/

/-- The address the stack pointer value `s` names: `$0100 | S` (R22). -/
def stackAddr (s : Byte) : Addr := abs16 s 0x01

/-- `Push(val)`: the write first, at the old S (R160). -/
def push (val : Byte) (s : State) : State :=
  (memWrite (stackAddr s.cpu.s) val s).mapCpu (fun c => c.setS (c.s - 1))

/-- `Pull()`: the increment first (R161). -/
def pull (s : State) : Byte × State :=
  let s1 := s.mapCpu (fun c => c.setS (c.s + 1))
  memRead (stackAddr s1.cpu.s) s1

/-! ## Exceptions -/

/-- TAKING AN INTERRUPT: `Interrupt(vector, b)` with the address `ret` to save (R413): push the high
byte of `ret`, the low byte, and `P` with bit 4 = `b`; set I; load PC from the vector; 7 cycles. -/
def interrupt (vector : Addr) (b : Bool) (ret : Addr) (s : State) : State :=
  let s1 := push (loByte ret) (push (hiByte ret) s)
  let s2 := (push (s1.cpu.pushedP b) s1).mapCpu (Cpu.setI true)
  let v := memRead16 vector s2
  v.2.mapCpu (fun c => (c.setPc v.1).setCycles 7)

/-- THE RETURN: pull `P`, ignoring bits 5 and 4, then PCL, then PCH (R239, R421). -/
def returnFromInterrupt (s : State) : State :=
  let b := pull s
  let lo := pull (b.2.mapCpu (Cpu.setP b.1))
  let hi := pull lo.2
  hi.2.mapCpu (Cpu.setPc (abs16 lo.1 hi.1))

/-- The vectors (R71). -/
def nmiVector : Addr := 0xFFFA#16
/-- The RESET vector (R71). -/
def resetVector : Addr := 0xFFFC#16
/-- The vector IRQ and BRK share (R71). -/
def irqVector : Addr := 0xFFFE#16

/-- The NMI sequence (R414). -/
def nmiSequence (s : State) : State :=
  interrupt nmiVector false s.cpu.pc (s.mapCpu (fun c => c.setNmi c.nmiPrev false))

/-- The IRQ sequence (R416). -/
def irqSequence (s : State) : State := interrupt irqVector false s.cpu.pc s

/-- The PPU registers RESET clears (R417). -/
def Ppu.onReset (p : Ppu) : Ppu :=
  { p with ctrl := 0, mask := 0, t := 0, fineX := 0, w := false, readBuffer := 0, oddFrame := false }

/-- The RESET sequence (R417): nothing is pushed, S drops by 3, I is set, PC is loaded from `$FFFC`,
the latches and PPU registers it names are cleared; 7 cycles. -/
def resetSequence (s : State) : State :=
  let s1 := s.mapCpu (fun c => (c.setS (c.s - 3)).setI true)
  let v := memRead16 resetVector s1
  let s2 :=
    v.2.mapCpu (fun c =>
      { c with pc := v.1, nmiPending := false, resetPending := false, halted := false, cycles := 7 })
  s2.setPpu s2.ppu.onReset

/-! ## The clock -/

/-- At a frame event the framebuffer is delivered to the host (R331, R398), then the host's next
snapshot of the buttons, if it offers one, is sampled (R399). -/
def Ports.frameEvent (f : FrameBuffer) (p : Ports) : Ports :=
  let q := { p with frameCount := p.frameCount + 1, frameOut := f }
  match p.pendingInput with
  | [] => q
  | (b0, b1) :: rest => { q with buttons0 := b0, buttons1 := b1, pendingInput := rest }

/-- One PPU dot (R290), the frame event if it ends the frame (R292), and the CPU's observation of the
NMI wire (R395, R396). -/
def dotStep (s : State) : State :=
  let p := s.ppu.tick s.board
  observeNmi
    { s with
      ppu := p
      ports := if s.ppu.frameEnds then s.ports.frameEvent p.framebuffer else s.ports }

/-- `n` PPU dots. -/
def runDots : Nat → State → State
  | 0, s => s
  | n + 1, s => runDots n (dotStep s)

/-- The end of a CPU step and the dots it paid for: `cyc <- cyc + cycles` (R101), then three dots a
cycle (R395, R471). -/
def clock (s : State) : State := runDots (3 * s.cpu.cycles) (s.mapCpu Cpu.bank)

end Sys2Proof.Machine
end

