-- ==== Sys2Proof/Machine/Operands.lean ====
section
/-! DEFINITION. The operand forms (30_encoding.md R102 to R108, R113, R114, R119): effective address
and page-crossed flag of each addressing mode, and the four shapes an instruction's accesses take:
read, store, read-modify-write, branch. Each shape first sets `cycles` to its row's base count (R101). -/

namespace Sys2Proof.Machine

/-- An addressing mode that names a byte of memory, with its operand (R103). -/
inductive AddrMode where
  | zp (b : Byte)
  | zpx (b : Byte)
  | zpy (b : Byte)
  | abs (w : Addr)
  | abx (w : Addr)
  | aby (w : Addr)
  | izx (b : Byte)
  | izy (b : Byte)
  deriving DecidableEq, Repr

/-- A byte as a 16-bit number: a zero-page address, or an index. -/
def zext (b : Byte) : Addr := b.setWidth 16

/-- The 16-bit pointer at zero-page address `b`; its high byte is at `u8(b + 1)` (R107, R108). Zero-page
reads have no side effect (R61), so this only returns the value. -/
def zpPointer (b : Byte) (s : State) : Addr := abs16 (busByte (zext b) s) (busByte (zext (b + 1)) s)

/-- The effective address (R105 to R108). -/
def AddrMode.ea (m : AddrMode) (s : State) : Addr :=
  match m with
  | .zp b => zext b
  | .zpx b => zext (b + s.cpu.x)
  | .zpy b => zext (b + s.cpu.y)
  | .abs w => w
  | .abx w => w + zext s.cpu.x
  | .aby w => w + zext s.cpu.y
  | .izx b => zpPointer (b + s.cpu.x) s
  | .izy b => zpPointer b s + zext s.cpu.y

/-- The address before indexing, whose page `crossed` compares with (R106, R108). -/
def AddrMode.base (m : AddrMode) (s : State) : Addr :=
  match m with
  | .abx w | .aby w => w
  | .izy b => zpPointer b s
  | .zp _ | .zpx _ | .zpy _ | .abs _ | .izx _ => m.ea s

/-- The page-crossed flag: 0 in every mode but ABX, ABY and IZY (R105 to R108). -/
def AddrMode.crossed (m : AddrMode) (s : State) : Bool := hiByte (m.ea s) != hiByte (m.base s)

/-- Start an instruction: `cycles <- base_cycles` (R101). -/
def State.start (base : Nat) (s : State) : State := s.mapCpu (Cpu.setCycles base)

/-- `PenaltyIfCrossed()` (R119). -/
def State.penalty (crossed : Bool) (s : State) : State :=
  if crossed then s.mapCpu (Cpu.addCycles 1) else s

/-- An implied or accumulator instruction whose effect is on the CPU alone. -/
def onCpu (base : Nat) (f : Cpu → Cpu) (s : State) : State := (s.start base).mapCpu f

/-- A reading instruction in IMM: the operand is `b` itself (R104). -/
def readImm (base : Nat) (b : Byte) (f : Byte → Cpu → Cpu) (s : State) : State := onCpu base (f b) s

/-- A reading instruction with an effective address: `m <- MemRead(ea, 1)`, its effect, then
`PenaltyIfCrossed()` (R119). Of the rows read so, `crossed` is 1 only on the 23 `+p` rows (R115). -/
def readMem (base : Nat) (m : AddrMode) (f : Byte → Cpu → Cpu) (s : State) : State :=
  let r := memRead (m.ea s) (s.start base)
  (r.2.mapCpu (f r.1)).penalty (m.crossed s)

/-- A store: `MemWrite(ea, 1, val)`; no read, no penalty (R143 to R145). -/
def storeMem (base : Nat) (m : AddrMode) (val : Cpu → Byte) (s : State) : State :=
  memWrite (m.ea s) (val s.cpu) (s.start base)

/-- A read-modify-write: one read, one write of the same address, then the flags (R200). `res` gives
the new byte from the old C and the old byte; `fl` the flags from the old and the new byte. -/
def modifyMem (base : Nat) (m : AddrMode) (res : Bool → Byte → Byte) (fl : Byte → Byte → Cpu → Cpu)
    (s : State) : State :=
  let r := memRead (m.ea s) (s.start base)
  let v := res r.2.cpu.c r.1
  (memWrite (m.ea s) v r.2).mapCpu (fl r.1 v)

/-- A read-modify-write of A: no bus access (R104, R119). -/
def modifyAcc (base : Nat) (res : Bool → Byte → Byte) (fl : Byte → Byte → Cpu → Cpu) (s : State) : State :=
  onCpu base (fun c => fl c.a (res c.c c.a) (c.setA (res c.c c.a))) s

/-- A branch's target: `u16(PC + displacement)`, PC past the branch (R113). -/
def branchTarget (d : Int) (c : Cpu) : Addr := c.pc + BitVec.ofInt 16 d

/-- `Branch(cond)` (R214): 2 cycles; taken, 1 more and PC moves; 1 more again if the target is in
another page than the next instruction. -/
def branch (cond : Cpu → Bool) (d : Int) (s : State) : State :=
  if cond s.cpu then
    ((s.start 2).mapCpu (Cpu.addCycles 1)).penalty (hiByte (branchTarget d s.cpu) != hiByte s.cpu.pc)
      |>.mapCpu (Cpu.setPc (branchTarget d s.cpu))
  else s.start 2

/-- IND, used by `JMP ($nnnn)` only: the high pointer byte comes from the same page (R114). -/
def indirectTarget (w : Addr) (s : State) : Addr × State :=
  let lo := memRead w s
  let hi := memRead (abs16 (loByte w + 1) (hiByte w)) lo.2
  (abs16 lo.1 hi.1, hi.2)

end Sys2Proof.Machine
end

