-- ==== Sys2Proof/Machine/Arith.lean ====
section
/-! DEFINITION. The meanings of ADC SBC AND ORA EOR CMP CPX CPY BIT (42_logic_arith_compare.md R170 to R181). -/

namespace Sys2Proof.Machine

/-- ADC (R170). -/
def adc (m : Byte) (c : Cpu) : Cpu := c.addWithCarry m

/-- SBC: `AddWithCarry(m ^ $FF)` (R171). -/
def sbc (m : Byte) (c : Cpu) : Cpu := c.addWithCarry (m ^^^ 0xFF)

/-- AND (R172). -/
def andA (m : Byte) (c : Cpu) : Cpu := (c.setA (c.a &&& m)).setNZ (c.a &&& m)

/-- ORA (R173). -/
def oraA (m : Byte) (c : Cpu) : Cpu := (c.setA (c.a ||| m)).setNZ (c.a ||| m)

/-- EOR (R174). -/
def eorA (m : Byte) (c : Cpu) : Cpu := (c.setA (c.a ^^^ m)).setNZ (c.a ^^^ m)

/-- CMP (R175). -/
def cmpA (m : Byte) (c : Cpu) : Cpu := c.compare c.a m

/-- CPX (R176). -/
def cmpX (m : Byte) (c : Cpu) : Cpu := c.compare c.x m

/-- CPY (R177). -/
def cmpY (m : Byte) (c : Cpu) : Cpu := c.compare c.y m

/-- `ADC ($nn,X)`, `$61`, 6 cycles (R170). -/
def execAdcIzx (b : Byte) (s : State) : Out :=
  .next (readMem 6 (.izx b) adc s)

/-- `ADC $nn`, `$65`, 3 cycles (R170). -/
def execAdcZp (b : Byte) (s : State) : Out :=
  .next (readMem 3 (.zp b) adc s)

/-- `ADC #$nn`, `$69`, 2 cycles (R170). -/
def execAdcImm (b : Byte) (s : State) : Out :=
  .next (readImm 2 b adc s)

/-- `ADC $nnnn`, `$6D`, 4 cycles (R170). -/
def execAdcAbs (w : Addr) (s : State) : Out :=
  .next (readMem 4 (.abs w) adc s)

/-- `ADC ($nn),Y`, `$71`, 5+p cycles (R170). -/
def execAdcIzy (b : Byte) (s : State) : Out :=
  .next (readMem 5 (.izy b) adc s)

/-- `ADC $nn,X`, `$75`, 4 cycles (R170). -/
def execAdcZpx (b : Byte) (s : State) : Out :=
  .next (readMem 4 (.zpx b) adc s)

/-- `ADC $nnnn,Y`, `$79`, 4+p cycles (R170). -/
def execAdcAby (w : Addr) (s : State) : Out :=
  .next (readMem 4 (.aby w) adc s)

/-- `ADC $nnnn,X`, `$7D`, 4+p cycles (R170). -/
def execAdcAbx (w : Addr) (s : State) : Out :=
  .next (readMem 4 (.abx w) adc s)

/-- `SBC ($nn,X)`, `$E1`, 6 cycles (R171). -/
def execSbcIzx (b : Byte) (s : State) : Out :=
  .next (readMem 6 (.izx b) sbc s)

/-- `SBC $nn`, `$E5`, 3 cycles (R171). -/
def execSbcZp (b : Byte) (s : State) : Out :=
  .next (readMem 3 (.zp b) sbc s)

/-- `SBC #$nn`, `$E9`, 2 cycles (R171). -/
def execSbcImm (b : Byte) (s : State) : Out :=
  .next (readImm 2 b sbc s)

/-- `SBC $nnnn`, `$ED`, 4 cycles (R171). -/
def execSbcAbs (w : Addr) (s : State) : Out :=
  .next (readMem 4 (.abs w) sbc s)

/-- `SBC ($nn),Y`, `$F1`, 5+p cycles (R171). -/
def execSbcIzy (b : Byte) (s : State) : Out :=
  .next (readMem 5 (.izy b) sbc s)

/-- `SBC $nn,X`, `$F5`, 4 cycles (R171). -/
def execSbcZpx (b : Byte) (s : State) : Out :=
  .next (readMem 4 (.zpx b) sbc s)

/-- `SBC $nnnn,Y`, `$F9`, 4+p cycles (R171). -/
def execSbcAby (w : Addr) (s : State) : Out :=
  .next (readMem 4 (.aby w) sbc s)

/-- `SBC $nnnn,X`, `$FD`, 4+p cycles (R171). -/
def execSbcAbx (w : Addr) (s : State) : Out :=
  .next (readMem 4 (.abx w) sbc s)

/-- `AND ($nn,X)`, `$21`, 6 cycles (R172). -/
def execAndIzx (b : Byte) (s : State) : Out :=
  .next (readMem 6 (.izx b) andA s)

/-- `AND $nn`, `$25`, 3 cycles (R172). -/
def execAndZp (b : Byte) (s : State) : Out :=
  .next (readMem 3 (.zp b) andA s)

/-- `AND #$nn`, `$29`, 2 cycles (R172). -/
def execAndImm (b : Byte) (s : State) : Out :=
  .next (readImm 2 b andA s)

/-- `AND $nnnn`, `$2D`, 4 cycles (R172). -/
def execAndAbs (w : Addr) (s : State) : Out :=
  .next (readMem 4 (.abs w) andA s)

/-- `AND ($nn),Y`, `$31`, 5+p cycles (R172). -/
def execAndIzy (b : Byte) (s : State) : Out :=
  .next (readMem 5 (.izy b) andA s)

/-- `AND $nn,X`, `$35`, 4 cycles (R172). -/
def execAndZpx (b : Byte) (s : State) : Out :=
  .next (readMem 4 (.zpx b) andA s)

/-- `AND $nnnn,Y`, `$39`, 4+p cycles (R172). -/
def execAndAby (w : Addr) (s : State) : Out :=
  .next (readMem 4 (.aby w) andA s)

/-- `AND $nnnn,X`, `$3D`, 4+p cycles (R172). -/
def execAndAbx (w : Addr) (s : State) : Out :=
  .next (readMem 4 (.abx w) andA s)

/-- `ORA ($nn,X)`, `$01`, 6 cycles (R173). -/
def execOraIzx (b : Byte) (s : State) : Out :=
  .next (readMem 6 (.izx b) oraA s)

/-- `ORA $nn`, `$05`, 3 cycles (R173). -/
def execOraZp (b : Byte) (s : State) : Out :=
  .next (readMem 3 (.zp b) oraA s)

/-- `ORA #$nn`, `$09`, 2 cycles (R173). -/
def execOraImm (b : Byte) (s : State) : Out :=
  .next (readImm 2 b oraA s)

/-- `ORA $nnnn`, `$0D`, 4 cycles (R173). -/
def execOraAbs (w : Addr) (s : State) : Out :=
  .next (readMem 4 (.abs w) oraA s)

/-- `ORA ($nn),Y`, `$11`, 5+p cycles (R173). -/
def execOraIzy (b : Byte) (s : State) : Out :=
  .next (readMem 5 (.izy b) oraA s)

/-- `ORA $nn,X`, `$15`, 4 cycles (R173). -/
def execOraZpx (b : Byte) (s : State) : Out :=
  .next (readMem 4 (.zpx b) oraA s)

/-- `ORA $nnnn,Y`, `$19`, 4+p cycles (R173). -/
def execOraAby (w : Addr) (s : State) : Out :=
  .next (readMem 4 (.aby w) oraA s)

/-- `ORA $nnnn,X`, `$1D`, 4+p cycles (R173). -/
def execOraAbx (w : Addr) (s : State) : Out :=
  .next (readMem 4 (.abx w) oraA s)

/-- `EOR ($nn,X)`, `$41`, 6 cycles (R174). -/
def execEorIzx (b : Byte) (s : State) : Out :=
  .next (readMem 6 (.izx b) eorA s)

/-- `EOR $nn`, `$45`, 3 cycles (R174). -/
def execEorZp (b : Byte) (s : State) : Out :=
  .next (readMem 3 (.zp b) eorA s)

/-- `EOR #$nn`, `$49`, 2 cycles (R174). -/
def execEorImm (b : Byte) (s : State) : Out :=
  .next (readImm 2 b eorA s)

/-- `EOR $nnnn`, `$4D`, 4 cycles (R174). -/
def execEorAbs (w : Addr) (s : State) : Out :=
  .next (readMem 4 (.abs w) eorA s)

/-- `EOR ($nn),Y`, `$51`, 5+p cycles (R174). -/
def execEorIzy (b : Byte) (s : State) : Out :=
  .next (readMem 5 (.izy b) eorA s)

/-- `EOR $nn,X`, `$55`, 4 cycles (R174). -/
def execEorZpx (b : Byte) (s : State) : Out :=
  .next (readMem 4 (.zpx b) eorA s)

/-- `EOR $nnnn,Y`, `$59`, 4+p cycles (R174). -/
def execEorAby (w : Addr) (s : State) : Out :=
  .next (readMem 4 (.aby w) eorA s)

/-- `EOR $nnnn,X`, `$5D`, 4+p cycles (R174). -/
def execEorAbx (w : Addr) (s : State) : Out :=
  .next (readMem 4 (.abx w) eorA s)

/-- `CMP ($nn,X)`, `$C1`, 6 cycles (R175). -/
def execCmpIzx (b : Byte) (s : State) : Out :=
  .next (readMem 6 (.izx b) cmpA s)

/-- `CMP $nn`, `$C5`, 3 cycles (R175). -/
def execCmpZp (b : Byte) (s : State) : Out :=
  .next (readMem 3 (.zp b) cmpA s)

/-- `CMP #$nn`, `$C9`, 2 cycles (R175). -/
def execCmpImm (b : Byte) (s : State) : Out :=
  .next (readImm 2 b cmpA s)

/-- `CMP $nnnn`, `$CD`, 4 cycles (R175). -/
def execCmpAbs (w : Addr) (s : State) : Out :=
  .next (readMem 4 (.abs w) cmpA s)

/-- `CMP ($nn),Y`, `$D1`, 5+p cycles (R175). -/
def execCmpIzy (b : Byte) (s : State) : Out :=
  .next (readMem 5 (.izy b) cmpA s)

/-- `CMP $nn,X`, `$D5`, 4 cycles (R175). -/
def execCmpZpx (b : Byte) (s : State) : Out :=
  .next (readMem 4 (.zpx b) cmpA s)

/-- `CMP $nnnn,Y`, `$D9`, 4+p cycles (R175). -/
def execCmpAby (w : Addr) (s : State) : Out :=
  .next (readMem 4 (.aby w) cmpA s)

/-- `CMP $nnnn,X`, `$DD`, 4+p cycles (R175). -/
def execCmpAbx (w : Addr) (s : State) : Out :=
  .next (readMem 4 (.abx w) cmpA s)

/-- `CPX #$nn`, `$E0`, 2 cycles (R176). -/
def execCpxImm (b : Byte) (s : State) : Out :=
  .next (readImm 2 b cmpX s)

/-- `CPX $nn`, `$E4`, 3 cycles (R176). -/
def execCpxZp (b : Byte) (s : State) : Out :=
  .next (readMem 3 (.zp b) cmpX s)

/-- `CPX $nnnn`, `$EC`, 4 cycles (R176). -/
def execCpxAbs (w : Addr) (s : State) : Out :=
  .next (readMem 4 (.abs w) cmpX s)

/-- `CPY #$nn`, `$C0`, 2 cycles (R177). -/
def execCpyImm (b : Byte) (s : State) : Out :=
  .next (readImm 2 b cmpY s)

/-- `CPY $nn`, `$C4`, 3 cycles (R177). -/
def execCpyZp (b : Byte) (s : State) : Out :=
  .next (readMem 3 (.zp b) cmpY s)

/-- `CPY $nnnn`, `$CC`, 4 cycles (R177). -/
def execCpyAbs (w : Addr) (s : State) : Out :=
  .next (readMem 4 (.abs w) cmpY s)

/-- `BIT $nn`, `$24`, 3 cycles (R178). -/
def execBitZp (b : Byte) (s : State) : Out :=
  .next (readMem 3 (.zp b) Cpu.bitTest s)

/-- `BIT $nnnn`, `$2C`, 4 cycles (R178). -/
def execBitAbs (w : Addr) (s : State) : Out :=
  .next (readMem 4 (.abs w) Cpu.bitTest s)

end Sys2Proof.Machine
end

