-- ==== Sys2Proof/Machine/Control.lean ====
section
/-! DEFINITION. The meanings of JMP JSR RTS and the eight branches (44_jump_branch_subroutine.md R210 to R222). -/

namespace Sys2Proof.Machine

/-- `PC <- abs16` (R210). -/
def jumpTo (w : Addr) (s : State) : State := s.mapCpu (Cpu.setPc w)

/-- `PC <- ea`, the pointer read within its page (R211). -/
def jumpIndirect (w : Addr) (s : State) : State :=
  let r := indirectTarget w s
  r.2.mapCpu (Cpu.setPc r.1)

/-- JSR (R212): push the address of the instruction's last byte, high byte first, and jump. -/
def callSubroutine (w : Addr) (s : State) : State :=
  (push (loByte (s.cpu.pc - 1)) (push (hiByte (s.cpu.pc - 1)) s)).mapCpu (Cpu.setPc w)

/-- RTS (R213): pull the low byte, the high byte, and continue one past the pulled address. -/
def returnFromSubroutine (s : State) : State :=
  let lo := pull s
  let hi := pull lo.2
  hi.2.mapCpu (Cpu.setPc (abs16 lo.1 hi.1 + 1))

/-- `JMP $nnnn`, `$4C`, 3 cycles (R210). -/
def execJmpAbs (w : Addr) (s : State) : Out :=
  .next (jumpTo w (s.start 3))

/-- `JMP ($nnnn)`, `$6C`, 5 cycles (R211). -/
def execJmpInd (w : Addr) (s : State) : Out :=
  .next (jumpIndirect w (s.start 5))

/-- `JSR $nnnn`, `$20`, 6 cycles (R212). -/
def execJsr (w : Addr) (s : State) : Out :=
  .next (callSubroutine w (s.start 6))

/-- `RTS`, `$60`, 6 cycles (R213). -/
def execRts (s : State) : Out :=
  .next (returnFromSubroutine (s.start 6))

/-- `BCC label`, `$90`, 2+b cycles (R215). -/
def execBcc (d : Int) (s : State) : Out :=
  .next (branch (fun c => !c.c) d s)

/-- `BCS label`, `$B0`, 2+b cycles (R216). -/
def execBcs (d : Int) (s : State) : Out :=
  .next (branch (fun c => c.c) d s)

/-- `BEQ label`, `$F0`, 2+b cycles (R217). -/
def execBeq (d : Int) (s : State) : Out :=
  .next (branch (fun c => c.z) d s)

/-- `BMI label`, `$30`, 2+b cycles (R218). -/
def execBmi (d : Int) (s : State) : Out :=
  .next (branch (fun c => c.n) d s)

/-- `BNE label`, `$D0`, 2+b cycles (R219). -/
def execBne (d : Int) (s : State) : Out :=
  .next (branch (fun c => !c.z) d s)

/-- `BPL label`, `$10`, 2+b cycles (R220). -/
def execBpl (d : Int) (s : State) : Out :=
  .next (branch (fun c => !c.n) d s)

/-- `BVC label`, `$50`, 2+b cycles (R221). -/
def execBvc (d : Int) (s : State) : Out :=
  .next (branch (fun c => !c.v) d s)

/-- `BVS label`, `$70`, 2+b cycles (R222). -/
def execBvs (d : Int) (s : State) : Out :=
  .next (branch (fun c => c.v) d s)

end Sys2Proof.Machine
end

