-- ==== Sys2Proof/Machine/IncShift.lean ====
section
/-! DEFINITION. The meanings of INC DEC INX INY DEX DEY ASL LSR ROL ROR (43_incdec_shift.md R190 to R200). -/

namespace Sys2Proof.Machine

/-- `u8(m + 1)` (R190). -/
def incRes (_ : Bool) (m : Byte) : Byte := m + 1

/-- `u8(m - 1)` (R191). -/
def decRes (_ : Bool) (m : Byte) : Byte := m - 1

/-- ASL's new byte (R196). -/
def aslRes (_ : Bool) (m : Byte) : Byte := aslResult m

/-- LSR's new byte (R197). -/
def lsrRes (_ : Bool) (m : Byte) : Byte := lsrResult m

/-- Flags of INC and DEC: Z and N of the new byte (R190, R191). -/
def stepFlags (_ r : Byte) (c : Cpu) : Cpu := c.setNZ r

/-- Flags of ASL and ROL: C is the old bit 7 (R196, R198). -/
def leftFlags (m r : Byte) (c : Cpu) : Cpu := c.shiftFlags m.msb r

/-- Flags of LSR and ROR: C is the old bit 0 (R197, R199). -/
def rightFlags (m r : Byte) (c : Cpu) : Cpu := c.shiftFlags (m.getLsbD 0) r

/-- `INC $nn`, `$E6`, 5 cycles (R190). -/
def execIncZp (b : Byte) (s : State) : Out :=
  .next (modifyMem 5 (.zp b) incRes stepFlags s)

/-- `INC $nnnn`, `$EE`, 6 cycles (R190). -/
def execIncAbs (w : Addr) (s : State) : Out :=
  .next (modifyMem 6 (.abs w) incRes stepFlags s)

/-- `INC $nn,X`, `$F6`, 6 cycles (R190). -/
def execIncZpx (b : Byte) (s : State) : Out :=
  .next (modifyMem 6 (.zpx b) incRes stepFlags s)

/-- `INC $nnnn,X`, `$FE`, 7 cycles (R190). -/
def execIncAbx (w : Addr) (s : State) : Out :=
  .next (modifyMem 7 (.abx w) incRes stepFlags s)

/-- `DEC $nn`, `$C6`, 5 cycles (R191). -/
def execDecZp (b : Byte) (s : State) : Out :=
  .next (modifyMem 5 (.zp b) decRes stepFlags s)

/-- `DEC $nnnn`, `$CE`, 6 cycles (R191). -/
def execDecAbs (w : Addr) (s : State) : Out :=
  .next (modifyMem 6 (.abs w) decRes stepFlags s)

/-- `DEC $nn,X`, `$D6`, 6 cycles (R191). -/
def execDecZpx (b : Byte) (s : State) : Out :=
  .next (modifyMem 6 (.zpx b) decRes stepFlags s)

/-- `DEC $nnnn,X`, `$DE`, 7 cycles (R191). -/
def execDecAbx (w : Addr) (s : State) : Out :=
  .next (modifyMem 7 (.abx w) decRes stepFlags s)

/-- `INX`, `$E8`, 2 cycles (R192). -/
def execInx (s : State) : Out :=
  .next (onCpu 2 (fun c => (c.setX (c.x + 1)).setNZ (c.x + 1)) s)

/-- `INY`, `$C8`, 2 cycles (R193). -/
def execIny (s : State) : Out :=
  .next (onCpu 2 (fun c => (c.setY (c.y + 1)).setNZ (c.y + 1)) s)

/-- `DEX`, `$CA`, 2 cycles (R194). -/
def execDex (s : State) : Out :=
  .next (onCpu 2 (fun c => (c.setX (c.x - 1)).setNZ (c.x - 1)) s)

/-- `DEY`, `$88`, 2 cycles (R195). -/
def execDey (s : State) : Out :=
  .next (onCpu 2 (fun c => (c.setY (c.y - 1)).setNZ (c.y - 1)) s)

/-- `ASL $nn`, `$06`, 5 cycles (R196). -/
def execAslZp (b : Byte) (s : State) : Out :=
  .next (modifyMem 5 (.zp b) aslRes leftFlags s)

/-- `ASL A`, `$0A`, 2 cycles (R196). -/
def execAslAcc (s : State) : Out :=
  .next (modifyAcc 2 aslRes leftFlags s)

/-- `ASL $nnnn`, `$0E`, 6 cycles (R196). -/
def execAslAbs (w : Addr) (s : State) : Out :=
  .next (modifyMem 6 (.abs w) aslRes leftFlags s)

/-- `ASL $nn,X`, `$16`, 6 cycles (R196). -/
def execAslZpx (b : Byte) (s : State) : Out :=
  .next (modifyMem 6 (.zpx b) aslRes leftFlags s)

/-- `ASL $nnnn,X`, `$1E`, 7 cycles (R196). -/
def execAslAbx (w : Addr) (s : State) : Out :=
  .next (modifyMem 7 (.abx w) aslRes leftFlags s)

/-- `LSR $nn`, `$46`, 5 cycles (R197). -/
def execLsrZp (b : Byte) (s : State) : Out :=
  .next (modifyMem 5 (.zp b) lsrRes rightFlags s)

/-- `LSR A`, `$4A`, 2 cycles (R197). -/
def execLsrAcc (s : State) : Out :=
  .next (modifyAcc 2 lsrRes rightFlags s)

/-- `LSR $nnnn`, `$4E`, 6 cycles (R197). -/
def execLsrAbs (w : Addr) (s : State) : Out :=
  .next (modifyMem 6 (.abs w) lsrRes rightFlags s)

/-- `LSR $nn,X`, `$56`, 6 cycles (R197). -/
def execLsrZpx (b : Byte) (s : State) : Out :=
  .next (modifyMem 6 (.zpx b) lsrRes rightFlags s)

/-- `LSR $nnnn,X`, `$5E`, 7 cycles (R197). -/
def execLsrAbx (w : Addr) (s : State) : Out :=
  .next (modifyMem 7 (.abx w) lsrRes rightFlags s)

/-- `ROL $nn`, `$26`, 5 cycles (R198). -/
def execRolZp (b : Byte) (s : State) : Out :=
  .next (modifyMem 5 (.zp b) rolResult leftFlags s)

/-- `ROL A`, `$2A`, 2 cycles (R198). -/
def execRolAcc (s : State) : Out :=
  .next (modifyAcc 2 rolResult leftFlags s)

/-- `ROL $nnnn`, `$2E`, 6 cycles (R198). -/
def execRolAbs (w : Addr) (s : State) : Out :=
  .next (modifyMem 6 (.abs w) rolResult leftFlags s)

/-- `ROL $nn,X`, `$36`, 6 cycles (R198). -/
def execRolZpx (b : Byte) (s : State) : Out :=
  .next (modifyMem 6 (.zpx b) rolResult leftFlags s)

/-- `ROL $nnnn,X`, `$3E`, 7 cycles (R198). -/
def execRolAbx (w : Addr) (s : State) : Out :=
  .next (modifyMem 7 (.abx w) rolResult leftFlags s)

/-- `ROR $nn`, `$66`, 5 cycles (R199). -/
def execRorZp (b : Byte) (s : State) : Out :=
  .next (modifyMem 5 (.zp b) rorResult rightFlags s)

/-- `ROR A`, `$6A`, 2 cycles (R199). -/
def execRorAcc (s : State) : Out :=
  .next (modifyAcc 2 rorResult rightFlags s)

/-- `ROR $nnnn`, `$6E`, 6 cycles (R199). -/
def execRorAbs (w : Addr) (s : State) : Out :=
  .next (modifyMem 6 (.abs w) rorResult rightFlags s)

/-- `ROR $nn,X`, `$76`, 6 cycles (R199). -/
def execRorZpx (b : Byte) (s : State) : Out :=
  .next (modifyMem 6 (.zpx b) rorResult rightFlags s)

/-- `ROR $nnnn,X`, `$7E`, 7 cycles (R199). -/
def execRorAbx (w : Addr) (s : State) : Out :=
  .next (modifyMem 7 (.abx w) rorResult rightFlags s)

end Sys2Proof.Machine
end

