-- ==== Sys2Proof/Machine/LoadStore.lean ====
section
/-! DEFINITION. The meanings of LDA LDX LDY STA STX STY TAX TAY TXA TYA TSX TXS (40_load_store_transfer.md R140 to R151). -/

namespace Sys2Proof.Machine

/-- `A <- m; SetNZ(m)` (R140). -/
def loadA (m : Byte) (c : Cpu) : Cpu := (c.setA m).setNZ m

/-- `X <- m; SetNZ(m)` (R141). -/
def loadX (m : Byte) (c : Cpu) : Cpu := (c.setX m).setNZ m

/-- `Y <- m; SetNZ(m)` (R142). -/
def loadY (m : Byte) (c : Cpu) : Cpu := (c.setY m).setNZ m

/-- `LDA ($nn,X)`, `$A1`, 6 cycles (R140). -/
def execLdaIzx (b : Byte) (s : State) : Out :=
  .next (readMem 6 (.izx b) loadA s)

/-- `LDA $nn`, `$A5`, 3 cycles (R140). -/
def execLdaZp (b : Byte) (s : State) : Out :=
  .next (readMem 3 (.zp b) loadA s)

/-- `LDA #$nn`, `$A9`, 2 cycles (R140). -/
def execLdaImm (b : Byte) (s : State) : Out :=
  .next (readImm 2 b loadA s)

/-- `LDA $nnnn`, `$AD`, 4 cycles (R140). -/
def execLdaAbs (w : Addr) (s : State) : Out :=
  .next (readMem 4 (.abs w) loadA s)

/-- `LDA ($nn),Y`, `$B1`, 5+p cycles (R140). -/
def execLdaIzy (b : Byte) (s : State) : Out :=
  .next (readMem 5 (.izy b) loadA s)

/-- `LDA $nn,X`, `$B5`, 4 cycles (R140). -/
def execLdaZpx (b : Byte) (s : State) : Out :=
  .next (readMem 4 (.zpx b) loadA s)

/-- `LDA $nnnn,Y`, `$B9`, 4+p cycles (R140). -/
def execLdaAby (w : Addr) (s : State) : Out :=
  .next (readMem 4 (.aby w) loadA s)

/-- `LDA $nnnn,X`, `$BD`, 4+p cycles (R140). -/
def execLdaAbx (w : Addr) (s : State) : Out :=
  .next (readMem 4 (.abx w) loadA s)

/-- `LDX #$nn`, `$A2`, 2 cycles (R141). -/
def execLdxImm (b : Byte) (s : State) : Out :=
  .next (readImm 2 b loadX s)

/-- `LDX $nn`, `$A6`, 3 cycles (R141). -/
def execLdxZp (b : Byte) (s : State) : Out :=
  .next (readMem 3 (.zp b) loadX s)

/-- `LDX $nnnn`, `$AE`, 4 cycles (R141). -/
def execLdxAbs (w : Addr) (s : State) : Out :=
  .next (readMem 4 (.abs w) loadX s)

/-- `LDX $nn,Y`, `$B6`, 4 cycles (R141). -/
def execLdxZpy (b : Byte) (s : State) : Out :=
  .next (readMem 4 (.zpy b) loadX s)

/-- `LDX $nnnn,Y`, `$BE`, 4+p cycles (R141). -/
def execLdxAby (w : Addr) (s : State) : Out :=
  .next (readMem 4 (.aby w) loadX s)

/-- `LDY #$nn`, `$A0`, 2 cycles (R142). -/
def execLdyImm (b : Byte) (s : State) : Out :=
  .next (readImm 2 b loadY s)

/-- `LDY $nn`, `$A4`, 3 cycles (R142). -/
def execLdyZp (b : Byte) (s : State) : Out :=
  .next (readMem 3 (.zp b) loadY s)

/-- `LDY $nnnn`, `$AC`, 4 cycles (R142). -/
def execLdyAbs (w : Addr) (s : State) : Out :=
  .next (readMem 4 (.abs w) loadY s)

/-- `LDY $nn,X`, `$B4`, 4 cycles (R142). -/
def execLdyZpx (b : Byte) (s : State) : Out :=
  .next (readMem 4 (.zpx b) loadY s)

/-- `LDY $nnnn,X`, `$BC`, 4+p cycles (R142). -/
def execLdyAbx (w : Addr) (s : State) : Out :=
  .next (readMem 4 (.abx w) loadY s)

/-- `STA ($nn,X)`, `$81`, 6 cycles (R143). -/
def execStaIzx (b : Byte) (s : State) : Out :=
  .next (storeMem 6 (.izx b) Cpu.a s)

/-- `STA $nn`, `$85`, 3 cycles (R143). -/
def execStaZp (b : Byte) (s : State) : Out :=
  .next (storeMem 3 (.zp b) Cpu.a s)

/-- `STA $nnnn`, `$8D`, 4 cycles (R143). -/
def execStaAbs (w : Addr) (s : State) : Out :=
  .next (storeMem 4 (.abs w) Cpu.a s)

/-- `STA ($nn),Y`, `$91`, 6 cycles (R143). -/
def execStaIzy (b : Byte) (s : State) : Out :=
  .next (storeMem 6 (.izy b) Cpu.a s)

/-- `STA $nn,X`, `$95`, 4 cycles (R143). -/
def execStaZpx (b : Byte) (s : State) : Out :=
  .next (storeMem 4 (.zpx b) Cpu.a s)

/-- `STA $nnnn,Y`, `$99`, 5 cycles (R143). -/
def execStaAby (w : Addr) (s : State) : Out :=
  .next (storeMem 5 (.aby w) Cpu.a s)

/-- `STA $nnnn,X`, `$9D`, 5 cycles (R143). -/
def execStaAbx (w : Addr) (s : State) : Out :=
  .next (storeMem 5 (.abx w) Cpu.a s)

/-- `STX $nn`, `$86`, 3 cycles (R144). -/
def execStxZp (b : Byte) (s : State) : Out :=
  .next (storeMem 3 (.zp b) Cpu.x s)

/-- `STX $nnnn`, `$8E`, 4 cycles (R144). -/
def execStxAbs (w : Addr) (s : State) : Out :=
  .next (storeMem 4 (.abs w) Cpu.x s)

/-- `STX $nn,Y`, `$96`, 4 cycles (R144). -/
def execStxZpy (b : Byte) (s : State) : Out :=
  .next (storeMem 4 (.zpy b) Cpu.x s)

/-- `STY $nn`, `$84`, 3 cycles (R145). -/
def execStyZp (b : Byte) (s : State) : Out :=
  .next (storeMem 3 (.zp b) Cpu.y s)

/-- `STY $nnnn`, `$8C`, 4 cycles (R145). -/
def execStyAbs (w : Addr) (s : State) : Out :=
  .next (storeMem 4 (.abs w) Cpu.y s)

/-- `STY $nn,X`, `$94`, 4 cycles (R145). -/
def execStyZpx (b : Byte) (s : State) : Out :=
  .next (storeMem 4 (.zpx b) Cpu.y s)

/-- `TAX`, `$AA`, 2 cycles (R146). -/
def execTax (s : State) : Out :=
  .next (onCpu 2 (fun c => (c.setX c.a).setNZ c.a) s)

/-- `TAY`, `$A8`, 2 cycles (R147). -/
def execTay (s : State) : Out :=
  .next (onCpu 2 (fun c => (c.setY c.a).setNZ c.a) s)

/-- `TXA`, `$8A`, 2 cycles (R148). -/
def execTxa (s : State) : Out :=
  .next (onCpu 2 (fun c => (c.setA c.x).setNZ c.x) s)

/-- `TYA`, `$98`, 2 cycles (R149). -/
def execTya (s : State) : Out :=
  .next (onCpu 2 (fun c => (c.setA c.y).setNZ c.y) s)

/-- `TSX`, `$BA`, 2 cycles (R150). -/
def execTsx (s : State) : Out :=
  .next (onCpu 2 (fun c => (c.setX c.s).setNZ c.s) s)

/-- `TXS`, `$9A`, 2 cycles (R151). -/
def execTxs (s : State) : Out :=
  .next (onCpu 2 (fun c => c.setS c.x) s)

end Sys2Proof.Machine
end

