-- ==== Sys2Proof/Machine/Stack.lean ====
section
/-! DEFINITION. The meanings of PHA PHP PLA PLP (41_stack.md R160 to R165). -/

namespace Sys2Proof.Machine

/-- Push a byte computed from the CPU. -/
def pushReg (base : Nat) (f : Cpu → Byte) (s : State) : State := push (f s.cpu) (s.start base)

/-- Pull a byte and apply its effect. -/
def pullReg (base : Nat) (f : Byte → Cpu → Cpu) (s : State) : State :=
  let r := pull (s.start base)
  r.2.mapCpu (f r.1)

/-- `PHA`, `$48`, 3 cycles (R162). -/
def execPha (s : State) : Out :=
  .next (pushReg 3 Cpu.a s)

/-- `PHP`, `$08`, 3 cycles (R163). -/
def execPhp (s : State) : Out :=
  .next (pushReg 3 (Cpu.pushedP true) s)

/-- `PLA`, `$68`, 4 cycles (R164). -/
def execPla (s : State) : Out :=
  .next (pullReg 4 loadA s)

/-- `PLP`, `$28`, 4 cycles (R165). -/
def execPlp (s : State) : Out :=
  .next (pullReg 4 Cpu.setP s)

end Sys2Proof.Machine
end

