-- ==== Sys2Proof/Machine/System.lean ====
section
/-! DEFINITION. The meanings of the flag instructions, NOP, BRK and RTI (45_flags_system.md R230 to R239). -/

namespace Sys2Proof.Machine

/-- BRK (R238, R412): `Interrupt` through `$FFFE` with B set, saving BRK's address + 2. -/
def softwareInterrupt (s : State) : State := interrupt irqVector true (s.cpu.pc + 1) s

/-- `CLC`, `$18`, 2 cycles (R230). -/
def execClc (s : State) : Out :=
  .next (onCpu 2 (Cpu.setC false) s)

/-- `SEC`, `$38`, 2 cycles (R231). -/
def execSec (s : State) : Out :=
  .next (onCpu 2 (Cpu.setC true) s)

/-- `CLI`, `$58`, 2 cycles (R232). -/
def execCli (s : State) : Out :=
  .next (onCpu 2 (Cpu.setI false) s)

/-- `SEI`, `$78`, 2 cycles (R233). -/
def execSei (s : State) : Out :=
  .next (onCpu 2 (Cpu.setI true) s)

/-- `CLV`, `$B8`, 2 cycles (R234). -/
def execClv (s : State) : Out :=
  .next (onCpu 2 (Cpu.setV false) s)

/-- `CLD`, `$D8`, 2 cycles (R235). -/
def execCld (s : State) : Out :=
  .next (onCpu 2 (Cpu.setD false) s)

/-- `SED`, `$F8`, 2 cycles (R236). -/
def execSed (s : State) : Out :=
  .next (onCpu 2 (Cpu.setD true) s)

/-- `NOP`, `$EA`, 2 cycles (R237). -/
def execNop (s : State) : Out :=
  .next (onCpu 2 (fun c => c) s)

/-- `BRK`, `$00`, 7 cycles (R238). -/
def execBrk (s : State) : Out :=
  .next (softwareInterrupt s)

/-- `RTI`, `$40`, 6 cycles (R239). -/
def execRti (s : State) : Out :=
  .next (returnFromInterrupt (s.start 6))

end Sys2Proof.Machine
end

