-- ==== Sys2Proof/Machine/Dispatch.lean ====
section
/-! DEFINITION. What each instruction does: one arm per constructor, PC already past the
instruction (30_encoding.md R101). -/

namespace Sys2Proof.Machine

def exec (i : Instr) (s : State) : Host.Outcome State Fault Refusal :=
  match i with
  -- Load, store and transfer (40_load_store_transfer.md)
  | .ldaIzx b => Sys2Proof.Machine.execLdaIzx b s
  | .ldaZp b => Sys2Proof.Machine.execLdaZp b s
  | .ldaImm b => Sys2Proof.Machine.execLdaImm b s
  | .ldaAbs w => Sys2Proof.Machine.execLdaAbs w s
  | .ldaIzy b => Sys2Proof.Machine.execLdaIzy b s
  | .ldaZpx b => Sys2Proof.Machine.execLdaZpx b s
  | .ldaAby w => Sys2Proof.Machine.execLdaAby w s
  | .ldaAbx w => Sys2Proof.Machine.execLdaAbx w s
  | .ldxImm b => Sys2Proof.Machine.execLdxImm b s
  | .ldxZp b => Sys2Proof.Machine.execLdxZp b s
  | .ldxAbs w => Sys2Proof.Machine.execLdxAbs w s
  | .ldxZpy b => Sys2Proof.Machine.execLdxZpy b s
  | .ldxAby w => Sys2Proof.Machine.execLdxAby w s
  | .ldyImm b => Sys2Proof.Machine.execLdyImm b s
  | .ldyZp b => Sys2Proof.Machine.execLdyZp b s
  | .ldyAbs w => Sys2Proof.Machine.execLdyAbs w s
  | .ldyZpx b => Sys2Proof.Machine.execLdyZpx b s
  | .ldyAbx w => Sys2Proof.Machine.execLdyAbx w s
  | .staIzx b => Sys2Proof.Machine.execStaIzx b s
  | .staZp b => Sys2Proof.Machine.execStaZp b s
  | .staAbs w => Sys2Proof.Machine.execStaAbs w s
  | .staIzy b => Sys2Proof.Machine.execStaIzy b s
  | .staZpx b => Sys2Proof.Machine.execStaZpx b s
  | .staAby w => Sys2Proof.Machine.execStaAby w s
  | .staAbx w => Sys2Proof.Machine.execStaAbx w s
  | .stxZp b => Sys2Proof.Machine.execStxZp b s
  | .stxAbs w => Sys2Proof.Machine.execStxAbs w s
  | .stxZpy b => Sys2Proof.Machine.execStxZpy b s
  | .styZp b => Sys2Proof.Machine.execStyZp b s
  | .styAbs w => Sys2Proof.Machine.execStyAbs w s
  | .styZpx b => Sys2Proof.Machine.execStyZpx b s
  | .tax => Sys2Proof.Machine.execTax s
  | .tay => Sys2Proof.Machine.execTay s
  | .txa => Sys2Proof.Machine.execTxa s
  | .tya => Sys2Proof.Machine.execTya s
  | .tsx => Sys2Proof.Machine.execTsx s
  | .txs => Sys2Proof.Machine.execTxs s
  -- Stack (41_stack.md)
  | .pha => Sys2Proof.Machine.execPha s
  | .php => Sys2Proof.Machine.execPhp s
  | .pla => Sys2Proof.Machine.execPla s
  | .plp => Sys2Proof.Machine.execPlp s
  -- Arithmetic, logic, compare (42_logic_arith_compare.md)
  | .adcIzx b => Sys2Proof.Machine.execAdcIzx b s
  | .adcZp b => Sys2Proof.Machine.execAdcZp b s
  | .adcImm b => Sys2Proof.Machine.execAdcImm b s
  | .adcAbs w => Sys2Proof.Machine.execAdcAbs w s
  | .adcIzy b => Sys2Proof.Machine.execAdcIzy b s
  | .adcZpx b => Sys2Proof.Machine.execAdcZpx b s
  | .adcAby w => Sys2Proof.Machine.execAdcAby w s
  | .adcAbx w => Sys2Proof.Machine.execAdcAbx w s
  | .sbcIzx b => Sys2Proof.Machine.execSbcIzx b s
  | .sbcZp b => Sys2Proof.Machine.execSbcZp b s
  | .sbcImm b => Sys2Proof.Machine.execSbcImm b s
  | .sbcAbs w => Sys2Proof.Machine.execSbcAbs w s
  | .sbcIzy b => Sys2Proof.Machine.execSbcIzy b s
  | .sbcZpx b => Sys2Proof.Machine.execSbcZpx b s
  | .sbcAby w => Sys2Proof.Machine.execSbcAby w s
  | .sbcAbx w => Sys2Proof.Machine.execSbcAbx w s
  | .andIzx b => Sys2Proof.Machine.execAndIzx b s
  | .andZp b => Sys2Proof.Machine.execAndZp b s
  | .andImm b => Sys2Proof.Machine.execAndImm b s
  | .andAbs w => Sys2Proof.Machine.execAndAbs w s
  | .andIzy b => Sys2Proof.Machine.execAndIzy b s
  | .andZpx b => Sys2Proof.Machine.execAndZpx b s
  | .andAby w => Sys2Proof.Machine.execAndAby w s
  | .andAbx w => Sys2Proof.Machine.execAndAbx w s
  | .oraIzx b => Sys2Proof.Machine.execOraIzx b s
  | .oraZp b => Sys2Proof.Machine.execOraZp b s
  | .oraImm b => Sys2Proof.Machine.execOraImm b s
  | .oraAbs w => Sys2Proof.Machine.execOraAbs w s
  | .oraIzy b => Sys2Proof.Machine.execOraIzy b s
  | .oraZpx b => Sys2Proof.Machine.execOraZpx b s
  | .oraAby w => Sys2Proof.Machine.execOraAby w s
  | .oraAbx w => Sys2Proof.Machine.execOraAbx w s
  | .eorIzx b => Sys2Proof.Machine.execEorIzx b s
  | .eorZp b => Sys2Proof.Machine.execEorZp b s
  | .eorImm b => Sys2Proof.Machine.execEorImm b s
  | .eorAbs w => Sys2Proof.Machine.execEorAbs w s
  | .eorIzy b => Sys2Proof.Machine.execEorIzy b s
  | .eorZpx b => Sys2Proof.Machine.execEorZpx b s
  | .eorAby w => Sys2Proof.Machine.execEorAby w s
  | .eorAbx w => Sys2Proof.Machine.execEorAbx w s
  | .cmpIzx b => Sys2Proof.Machine.execCmpIzx b s
  | .cmpZp b => Sys2Proof.Machine.execCmpZp b s
  | .cmpImm b => Sys2Proof.Machine.execCmpImm b s
  | .cmpAbs w => Sys2Proof.Machine.execCmpAbs w s
  | .cmpIzy b => Sys2Proof.Machine.execCmpIzy b s
  | .cmpZpx b => Sys2Proof.Machine.execCmpZpx b s
  | .cmpAby w => Sys2Proof.Machine.execCmpAby w s
  | .cmpAbx w => Sys2Proof.Machine.execCmpAbx w s
  | .cpxImm b => Sys2Proof.Machine.execCpxImm b s
  | .cpxZp b => Sys2Proof.Machine.execCpxZp b s
  | .cpxAbs w => Sys2Proof.Machine.execCpxAbs w s
  | .cpyImm b => Sys2Proof.Machine.execCpyImm b s
  | .cpyZp b => Sys2Proof.Machine.execCpyZp b s
  | .cpyAbs w => Sys2Proof.Machine.execCpyAbs w s
  | .bitZp b => Sys2Proof.Machine.execBitZp b s
  | .bitAbs w => Sys2Proof.Machine.execBitAbs w s
  -- Increment, decrement, shift, rotate (43_incdec_shift.md)
  | .incZp b => Sys2Proof.Machine.execIncZp b s
  | .incAbs w => Sys2Proof.Machine.execIncAbs w s
  | .incZpx b => Sys2Proof.Machine.execIncZpx b s
  | .incAbx w => Sys2Proof.Machine.execIncAbx w s
  | .decZp b => Sys2Proof.Machine.execDecZp b s
  | .decAbs w => Sys2Proof.Machine.execDecAbs w s
  | .decZpx b => Sys2Proof.Machine.execDecZpx b s
  | .decAbx w => Sys2Proof.Machine.execDecAbx w s
  | .inx => Sys2Proof.Machine.execInx s
  | .iny => Sys2Proof.Machine.execIny s
  | .dex => Sys2Proof.Machine.execDex s
  | .dey => Sys2Proof.Machine.execDey s
  | .aslZp b => Sys2Proof.Machine.execAslZp b s
  | .aslAcc => Sys2Proof.Machine.execAslAcc s
  | .aslAbs w => Sys2Proof.Machine.execAslAbs w s
  | .aslZpx b => Sys2Proof.Machine.execAslZpx b s
  | .aslAbx w => Sys2Proof.Machine.execAslAbx w s
  | .lsrZp b => Sys2Proof.Machine.execLsrZp b s
  | .lsrAcc => Sys2Proof.Machine.execLsrAcc s
  | .lsrAbs w => Sys2Proof.Machine.execLsrAbs w s
  | .lsrZpx b => Sys2Proof.Machine.execLsrZpx b s
  | .lsrAbx w => Sys2Proof.Machine.execLsrAbx w s
  | .rolZp b => Sys2Proof.Machine.execRolZp b s
  | .rolAcc => Sys2Proof.Machine.execRolAcc s
  | .rolAbs w => Sys2Proof.Machine.execRolAbs w s
  | .rolZpx b => Sys2Proof.Machine.execRolZpx b s
  | .rolAbx w => Sys2Proof.Machine.execRolAbx w s
  | .rorZp b => Sys2Proof.Machine.execRorZp b s
  | .rorAcc => Sys2Proof.Machine.execRorAcc s
  | .rorAbs w => Sys2Proof.Machine.execRorAbs w s
  | .rorZpx b => Sys2Proof.Machine.execRorZpx b s
  | .rorAbx w => Sys2Proof.Machine.execRorAbx w s
  -- Jumps, subroutines, branches (44_jump_branch_subroutine.md)
  | .jmpAbs w => Sys2Proof.Machine.execJmpAbs w s
  | .jmpInd w => Sys2Proof.Machine.execJmpInd w s
  | .jsr w => Sys2Proof.Machine.execJsr w s
  | .rts => Sys2Proof.Machine.execRts s
  | .bcc d => Sys2Proof.Machine.execBcc d s
  | .bcs d => Sys2Proof.Machine.execBcs d s
  | .beq d => Sys2Proof.Machine.execBeq d s
  | .bmi d => Sys2Proof.Machine.execBmi d s
  | .bne d => Sys2Proof.Machine.execBne d s
  | .bpl d => Sys2Proof.Machine.execBpl d s
  | .bvc d => Sys2Proof.Machine.execBvc d s
  | .bvs d => Sys2Proof.Machine.execBvs d s
  -- Flags and system (45_flags_system.md)
  | .clc => Sys2Proof.Machine.execClc s
  | .sec => Sys2Proof.Machine.execSec s
  | .cli => Sys2Proof.Machine.execCli s
  | .sei => Sys2Proof.Machine.execSei s
  | .clv => Sys2Proof.Machine.execClv s
  | .cld => Sys2Proof.Machine.execCld s
  | .sed => Sys2Proof.Machine.execSed s
  | .nop => Sys2Proof.Machine.execNop s
  | .brk => Sys2Proof.Machine.execBrk s
  | .rti => Sys2Proof.Machine.execRti s
end Sys2Proof.Machine
end

