-- ==== Sys2Proof/Machine/Sequencer.lean ====
section
/-! DEFINITION. What a CPU step is made of (30_encoding.md R101, 60_exceptions.md R410): which of the
five things is due, and fetching an instruction. -/

namespace Sys2Proof.Machine

/-- What a step does. -/
inductive Due where
  | reset | stuck | nmi | irq | instruction
  deriving DecidableEq, Repr

/-- Sampling, RESET > NMI > IRQ (R410); a halted CPU leaves only by RESET (R101, R411). -/
def due (s : State) : Due :=
  if s.ports.resetLine || s.cpu.resetPending then .reset
  else if s.cpu.halted then .stuck
  else if s.cpu.nmiPending then .nmi
  else if s.ports.irqLine && !s.cpu.i then .irq
  else .instruction

/-- Read the byte at PC and advance PC past it (R101). -/
def fetchByte (s : State) : Byte × State :=
  let r := memRead s.cpu.pc s
  (r.1, r.2.mapCpu (fun c => c.setPc (c.pc + 1)))

/-- Read `n` operand bytes, in ascending address order (R101). -/
def fetchBytes : Nat → State → List Byte × State
  | 0, s => ([], s)
  | n + 1, s =>
    let r := fetchByte s
    let rs := fetchBytes n r.2
    (r.1 :: rs.1, rs.2)

/-- How many operand bytes follow an opcode byte: a function of it alone (R100). -/
def operandBytes (op : Byte) : Nat :=
  match rowOf op with
  | some r => r.mode.operandBytes
  | none => 0

/-- Every byte of the instruction at PC, and the state with PC past it. -/
def fetchInstr (s : State) : List Byte × State :=
  let op := fetchByte s
  let rs := fetchBytes (operandBytes op.1) op.2
  (op.1 :: rs.1, rs.2)

/-- Fetch and decode: the instruction and the state it runs in, or the Halt of an undefined opcode
(R112, R411). -/
def fetch (s : State) : Except Fault (Instr × State) :=
  let f := fetchInstr s
  match decode f.1 with
  | .ok (i, _) => .ok (i, f.2)
  | .error _ => .error (.undefinedOpcode (busByte s.cpu.pc s) s.cpu.pc)

/-- The state a Halt leaves: PC at the offending byte, `halted` set, nothing else changed (R411; log entry 6). -/
def haltedState (s : State) : State := s.mapCpu (Cpu.setHalted true)

/-- Run an instruction, then the clock. -/
def clockOut : Out → Out
  | .next s => .next (clock s)
  | .fault f => .fault f
  | .refused r => .refused r

/-- One CPU step and its dots: one turn of the orchestrator's loop (R395). -/
def turn (s : State) : Out :=
  match due s with
  | .reset => .next (clock (resetSequence s))
  | .stuck => .fault (.halted s.cpu.pc)
  | .nmi => .next (clock (nmiSequence s))
  | .irq => .next (clock (irqSequence s))
  | .instruction =>
    match fetch s with
    | .error f => .fault f
    | .ok (i, s1) => clockOut (exec i s1)

/-! ## Placing a word where the next step fetches -/

/-- Whether a CPU address names a byte of memory that a fetch reads without effect: work RAM, PRG-RAM
of an MMC1 board, PRG-ROM. -/
def isMemory (b : Board) (a : Addr) : Bool :=
  decide (a.toNat < 0x2000) || decide (0x8000 ≤ a.toNat) ||
    (decide (0x6000 ≤ a.toNat) && b.cart.mapper == .mmc1)

/-- Put a byte at such an address from outside the machine: in RAM, or in the cartridge image. -/
def placeByte (a : Addr) (v : Byte) (s : State) : State :=
  if a.toNat < 0x2000 then s.setRam (s.ram.write (ramCell a) v)
  else if a.toNat < 0x8000 then
    s.setBoard { s.board with prgRam := s.board.prgRam.write (a.toNat - 0x6000) v }
  else
    s.setBoard
      { s.board with
        cart := { s.board.cart with prg := s.board.cart.prg.write (s.board.prgIndex a) v } }

/-- Put bytes from address `a` up. -/
def placeBytes : List Byte → Addr → State → State
  | [], _, s => s
  | v :: vs, a, s => placeBytes vs (a + 1) (placeByte a v s)

/-- The state in which the next step fetches (no RESET, NMI, IRQ or Halt due), PC unchanged where
three bytes of memory stand there and `$0200` where they do not (log entry 10). -/
def readyToFetch (s : State) : State :=
  let pc := s.cpu.pc
  let ok := isMemory s.board pc && isMemory s.board (pc + 1) && isMemory s.board (pc + 2)
  { s with
    cpu :=
      { s.cpu with
        pc := if ok then pc else 0x0200
        resetPending := false, nmiPending := false, halted := false }
    ports := { s.ports with resetLine := false, irqLine := false } }

end Sys2Proof.Machine
end

