-- ==== Sys2Proof/Machine/Step.lean ====
section
/-! DEFINITION. One step of the machine: one CPU step (R101) and the PPU dots it paid for (R395). -/

namespace Sys2Proof.Machine

/-- One step. -/
def step (s : State) : Host.Outcome State Fault Refusal := turn s

/-- `s` with the opcode-table word placed where the next step fetches, and that fetch due. -/
def State.withFetchWord (s : State) (nbits w : Nat) : State :=
  placeBytes (tableBytes nbits w) (readyToFetch s).cpu.pc (readyToFetch s)

end Sys2Proof.Machine
end

