-- ==== Sys2Proof/Machine/Cartridge.lean ====
section
/-! DEFINITION. What stands outside the running machine but gives it its image and reads it: loading
an iNES 1.0 image (48_cartridge_mappers.md R341, R342), and the colour of a delivered pixel (R398). -/

namespace Sys2Proof.Machine

/-- Why an image is rejected at load: no machine exists then (R342, R441). -/
inductive LoadError where
  /-- No 16-byte header with the magic bytes, or one that names no PRG bank. -/
  | malformedHeader
  /-- The file ends before the PRG and CHR data the header promises. -/
  | truncatedFile
  /-- A mapper number other than 0 and 1. -/
  | unsupportedMapper (number : Nat)
  deriving DecidableEq, Repr

/-- `"NES\x1A"` (R341). -/
def inesMagic : List Byte := [0x4E, 0x45, 0x53, 0x1A]

/-- "Mapper number = (flags7 & 0xF0) | (flags6 >> 4)" (R341). -/
def mapperNumber (flags6 flags7 : Byte) : Nat := ((flags7 &&& 0xF0#8) ||| (flags6 >>> 4)).toNat

/-- The mapper of a number, if supported (R342). -/
def mapperOf : Nat → Option Mapper
  | 0 => some .nrom
  | 1 => some .mmc1
  | _ => none

/-- Load an image: header, 512 bytes of trainer if flags6 bit 2 is set, PRG-ROM, CHR-ROM (R341, R342). No
header is rejected for its flags (log entry 8), nor an image for its size: not an NROM image of more than two
PRG banks (DESIGN CHOICE, log entry 13) nor an MMC1 image of more than 16 (DESIGN CHOICE, log entry 14). -/
def loadINes (file : List Byte) : Except LoadError Cartridge :=
  let prgBanks := (file.getD 4 0).toNat
  let chrBanks := (file.getD 5 0).toNat
  let flags6 := file.getD 6 0
  let number := mapperNumber flags6 (file.getD 7 0)
  let data := file.drop (16 + (if flags6.getLsbD 2 then 512 else 0))
  if file.length < 16 ∨ file.take 4 ≠ inesMagic ∨ prgBanks = 0 then .error .malformedHeader
  else
    match mapperOf number with
    | none => .error (.unsupportedMapper number)
    | some m =>
      if data.length < prgBanks * 16384 + chrBanks * 8192 then .error .truncatedFile
      else
        .ok
          { mapper := m
            prgBanks := prgBanks
            prg := Memory.ofBytes 0 (data.take (prgBanks * 16384))
            chrBanks := chrBanks
            chr := Memory.ofBytes 0 ((data.drop (prgBanks * 16384)).take (chrBanks * 8192))
            hdrMirroring := if flags6.getLsbD 0 then .vertical else .horizontal
            battery := flags6.getLsbD 1 }

/-- The RGB24 colour the host shows for a pixel of a delivered frame (R325, R398). -/
def framePixelRgb (f : FrameBuffer) (x y : Nat) : BitVec 24 := Config.systemPalette (f.pixel x y)

end Sys2Proof.Machine
end

