-- ==== Sys2Proof/Safety.lean ====
section
/-! DEFINITION. What counts as a well-formed state and as a run that goes on, in the terms the
statements use. -/

namespace Sys2Proof.Machine

/-- The palette holds nothing under the four mirrored indices (R37). -/
def paletteUnmirrored (m : Memory 6) : Bool := m.all (fun e => !(decide (16 ≤ e.1) && e.1 % 4 == 0))

/-- The PPU's memories are canonical and its counters in range (R36 to R44). -/
def Ppu.wf (p : Ppu) : Bool :=
  p.ntRam.wf 2048 && p.palette.wf 32 && paletteUnmirrored p.palette && p.oam.wf 256 &&
    p.secOam.wf 32 && decide (p.secCount ≤ 8) && p.units.length == 8 && decide (p.scanline ≤ 261) &&
    decide (p.dot ≤ 340) && p.framebuffer.wf

/-- A cartridge a machine can exist with (R342): a PRG bank or more, images of the stated sizes. -/
def Cartridge.wf (c : Cartridge) : Bool :=
  decide (1 ≤ c.prgBanks) && c.prg.wf c.prgLen && c.chr.wf (c.chrBanks * 8192)

/-- The board: image, write counter 0 to 4, cartridge RAM only where it exists, no MMC1 state on NROM
(R45 to R47). -/
def Board.wf (b : Board) : Bool :=
  b.cart.wf && decide (b.mmc1.count ≤ 4) && b.prgRam.wf 8192 && b.chrRam.wf 8192 &&
    (b.cart.hasChrRam || b.chrRam == []) &&
    (b.cart.mapper == .mmc1 || (b.prgRam == [] && b.mmc1 == Mmc1.powerOn))

/-- The state's invariant. -/
def State.wf (s : State) : Bool :=
  s.ram.wf 2048 && s.ppu.wf && s.board.wf && s.ports.frameOut.wf

/-- No sequence and no Halt is due: the next step fetches an instruction (R410). -/
def State.fetchDue (s : State) : Prop :=
  s.ports.resetLine = false ∧ s.cpu.resetPending = false ∧ s.cpu.halted = false ∧
    s.cpu.nmiPending = false ∧ (s.ports.irqLine = false ∨ s.cpu.i = true)

/-- The byte at PC is one of the 151 opcodes: the obligation R411 puts on a program. -/
def State.opcodeDefined (s : State) : Bool := (rowOf (busByte s.cpu.pc s)).isSome

/-- The machine goes on: one step answers a next state. -/
def State.goesOn (s : State) : Prop := ∃ t, step s = .next t

/-! ## Bytes of memory, wherever they are stored -/

/-- A byte (or palette entry) of some memory of the machine. -/
inductive Cell where
  | ram (j : Nat)
  | prgRam (j : Nat)
  | chrRam (j : Nat)
  | ntRam (j : Nat)
  | palette (j : Nat)
  | oam (j : Nat)
  | secOam (j : Nat)
  | prgRom (j : Nat)
  | chrRom (j : Nat)
  | pixel (x y : Nat)
  deriving DecidableEq, Repr

/-- What a cell holds: the model's read of one byte. -/
def State.cell (s : State) : Cell → Byte
  | .ram j => s.ram.read j
  | .prgRam j => s.board.prgRam.read j
  | .chrRam j => s.board.chrRam.read j
  | .ntRam j => s.ppu.ntRam.read j
  | .palette j => (s.ppu.palette.read j).setWidth 8
  | .oam j => s.ppu.oam.read j
  | .secOam j => s.ppu.secOam.read j
  | .prgRom j => s.board.cart.prg.read j
  | .chrRom j => s.board.cart.chr.read j
  | .pixel x y => (s.ppu.framebuffer.pixel x y).setWidth 8

/-- The cell a PPU-side write of `PpuWrite` stores to (R85), if any. -/
def ppuStoredCell (b : Board) (a : PpuAddr) : Option Cell :=
  if a.toNat < 0x2000 then if b.cart.hasChrRam then some (.chrRam (b.chrIndex a)) else none
  else if a.toNat < 0x3F00 then some (.ntRam (ntIndex b.mirroring a))
  else some (.palette (palCell a))

/-- Whether a CPU write to address `a` stores to the cell (R62): RAM, PRG-RAM, OAM through `$2004`,
the PPU's memories through `$2007`, all of OAM through `$4014`. -/
def storesTo (a : Addr) (s : State) (c : Cell) : Prop :=
  if a.toNat < 0x2000 then c = .ram (ramCell a)
  else if a.toNat < 0x4000 then
    (portOf a = 4 ∧ s.ppu.renderingInProgress = false ∧ c = .oam s.ppu.oamAddr.toNat) ∨
      (portOf a = 7 ∧ some c = ppuStoredCell s.board s.ppu.busAddr)
  else if a = 0x4014#16 then ∃ i, c = .oam i ∧ i < 256
  else
    s.board.cart.mapper = .mmc1 ∧ 0x6000 ≤ a.toNat ∧ a.toNat < 0x8000 ∧ c = .prgRam (a.toNat - 0x6000)

end Sys2Proof.Machine
end

