-- ==== Sys2Proof/WellFormed.lean ====
section
/-! DEFINITION. When an instruction is well formed. Operand bytes and words carry their bound in
their type; the one relation left to check is a branch displacement's range. -/

namespace Sys2Proof

/-- A REL displacement lies in -128 to +127 (30_encoding.md R102, R116). -/
def dispOk (d : Int) : Bool := decide (-128 ≤ d) && decide (d ≤ 127)

/-- The instruction's fields fit its encoding. -/
def Instr.wellFormed : Instr → Bool
  | .staIzx _ => true
  | .styZp _ => true
  | .staZp _ => true
  | .stxZp _ => true
  | .txa => true
  | .styAbs _ => true
  | .staAbs _ => true
  | .stxAbs _ => true
  | .staIzy _ => true
  | .styZpx _ => true
  | .staZpx _ => true
  | .stxZpy _ => true
  | .tya => true
  | .staAby _ => true
  | .txs => true
  | .staAbx _ => true
  | .ldyImm _ => true
  | .ldaIzx _ => true
  | .ldxImm _ => true
  | .ldyZp _ => true
  | .ldaZp _ => true
  | .ldxZp _ => true
  | .tay => true
  | .ldaImm _ => true
  | .tax => true
  | .ldyAbs _ => true
  | .ldaAbs _ => true
  | .ldxAbs _ => true
  | .ldaIzy _ => true
  | .ldyZpx _ => true
  | .ldaZpx _ => true
  | .ldxZpy _ => true
  | .ldaAby _ => true
  | .tsx => true
  | .ldyAbx _ => true
  | .ldaAbx _ => true
  | .ldxAby _ => true
  | .php => true
  | .plp => true
  | .pha => true
  | .pla => true
  | .oraIzx _ => true
  | .oraZp _ => true
  | .oraImm _ => true
  | .oraAbs _ => true
  | .oraIzy _ => true
  | .oraZpx _ => true
  | .oraAby _ => true
  | .oraAbx _ => true
  | .andIzx _ => true
  | .bitZp _ => true
  | .andZp _ => true
  | .andImm _ => true
  | .bitAbs _ => true
  | .andAbs _ => true
  | .andIzy _ => true
  | .andZpx _ => true
  | .andAby _ => true
  | .andAbx _ => true
  | .eorIzx _ => true
  | .eorZp _ => true
  | .eorImm _ => true
  | .eorAbs _ => true
  | .eorIzy _ => true
  | .eorZpx _ => true
  | .eorAby _ => true
  | .eorAbx _ => true
  | .adcIzx _ => true
  | .adcZp _ => true
  | .adcImm _ => true
  | .adcAbs _ => true
  | .adcIzy _ => true
  | .adcZpx _ => true
  | .adcAby _ => true
  | .adcAbx _ => true
  | .cpyImm _ => true
  | .cmpIzx _ => true
  | .cpyZp _ => true
  | .cmpZp _ => true
  | .cmpImm _ => true
  | .cpyAbs _ => true
  | .cmpAbs _ => true
  | .cmpIzy _ => true
  | .cmpZpx _ => true
  | .cmpAby _ => true
  | .cmpAbx _ => true
  | .cpxImm _ => true
  | .sbcIzx _ => true
  | .cpxZp _ => true
  | .sbcZp _ => true
  | .sbcImm _ => true
  | .cpxAbs _ => true
  | .sbcAbs _ => true
  | .sbcIzy _ => true
  | .sbcZpx _ => true
  | .sbcAby _ => true
  | .sbcAbx _ => true
  | .aslZp _ => true
  | .aslAcc => true
  | .aslAbs _ => true
  | .aslZpx _ => true
  | .aslAbx _ => true
  | .rolZp _ => true
  | .rolAcc => true
  | .rolAbs _ => true
  | .rolZpx _ => true
  | .rolAbx _ => true
  | .lsrZp _ => true
  | .lsrAcc => true
  | .lsrAbs _ => true
  | .lsrZpx _ => true
  | .lsrAbx _ => true
  | .rorZp _ => true
  | .rorAcc => true
  | .rorAbs _ => true
  | .rorZpx _ => true
  | .rorAbx _ => true
  | .dey => true
  | .decZp _ => true
  | .iny => true
  | .dex => true
  | .decAbs _ => true
  | .decZpx _ => true
  | .decAbx _ => true
  | .incZp _ => true
  | .inx => true
  | .incAbs _ => true
  | .incZpx _ => true
  | .incAbx _ => true
  | .bpl d => dispOk d
  | .jsr _ => true
  | .bmi d => dispOk d
  | .jmpAbs _ => true
  | .bvc d => dispOk d
  | .rts => true
  | .jmpInd _ => true
  | .bvs d => dispOk d
  | .bcc d => dispOk d
  | .bcs d => dispOk d
  | .bne d => dispOk d
  | .beq d => dispOk d
  | .brk => true
  | .clc => true
  | .sec => true
  | .rti => true
  | .cli => true
  | .sei => true
  | .clv => true
  | .cld => true
  | .nop => true
  | .sed => true
end Sys2Proof
end

