-- ==== Sys2Proof/Certificates/Slice0/Obligations.lean ====
section
/-! DEFINITION. The statements for the provers, and before them the words they are said in: the
forms of each family with the base cycles and penalty of 30_encoding.md R110, written out here again
from the spec, and the spec's arithmetic on naturals. -/

namespace Sys2Proof.Spec

open Sys2Proof.Machine

/-! ## The spec's arithmetic -/

/-- The zero half of `SetNZ` (00_scope.md R9). -/
def isZero (v : Byte) : Bool := decide (v.toNat = 0)

/-- The negative half of `SetNZ`: bit 7 (R9). -/
def isNeg (v : Byte) : Bool := decide (128 ≤ v.toNat)

/-- `s8(b)` (42_logic_arith_compare.md R179). -/
def s8 (b : Byte) : Int := if 128 ≤ b.toNat then (b.toNat : Int) - 256 else b.toNat

/-- `(hi << 8) | lo`. -/
def word (lo hi : Byte) : Addr := BitVec.ofNat 16 (lo.toNat + 256 * hi.toNat)

/-- Bits 7:0 of a 16-bit value. -/
def lowByte (w : Addr) : Byte := BitVec.ofNat 8 w.toNat

/-- Bits 15:8 of a 16-bit value. -/
def highByte (w : Addr) : Byte := BitVec.ofNat 8 (w.toNat / 256)

/-- The status byte with bit 5 set and bit 4 as given: N V 1 B D I Z C (10_state.md R25). -/
def statusByte (c : Cpu) (b : Bool) : Byte :=
  BitVec.ofNat 8 (128 * c.n.toNat + 64 * c.v.toNat + 32 + 16 * b.toNat + 8 * c.d.toNat + 4 * c.i.toNat +
    2 * c.z.toNat + c.c.toNat)

/-- The six flags from a pulled byte, bits 5 and 4 ignored (R25). -/
def pulled (c : Cpu) (b : Byte) : Cpu :=
  { c with
    n := decide (128 ≤ b.toNat), v := decide (b.toNat / 64 % 2 = 1), d := decide (b.toNat / 8 % 2 = 1)
    i := decide (b.toNat / 4 % 2 = 1), z := decide (b.toNat / 2 % 2 = 1), c := decide (b.toNat % 2 = 1) }

/-- The RAM cell a push names `k` pushes from now: `$0100 | u8(S - k)`. -/
def pushCell (s : Byte) (k : Nat) : Nat := 0x100 + (s.toNat + (256 - k)) % 256

/-- The RAM cell the `k`-th pull from now reads: `$0100 | u8(S + k)`. -/
def pullCell (s : Byte) (k : Nat) : Nat := 0x100 + (s.toNat + k) % 256

/-- The state with the cycle tally set. -/
def tally (k : Nat) (s : State) : State := { s with cpu := { s.cpu with cycles := k } }

/-- What a write of `$4014` adds to the tally `k` of an instruction begun at `cyc` (R391); nothing for
any other address. -/
def stall (a : Addr) (cyc k : Nat) : Nat :=
  if a = 0x4014#16 then if (cyc + k) % 2 = 1 then 514 else 513 else 0

/-- A PPU port address: `$2000-$3FFF` with `addr & 7 = r`. -/
def isPort (a : Addr) (r : Nat) : Prop := 0x2000 ≤ a.toNat ∧ a.toNat < 0x4000 ∧ a.toNat % 8 = r

/-! ## The forms of the families -/

/-- Where a reading instruction's operand is: `b1` itself, or the byte at an effective address (R119). -/
inductive Source where
  | imm (b : Byte)
  | mem (m : AddrMode)
  deriving DecidableEq, Repr

/-- `ReadOperand()`. -/
def Source.value (s : State) : Source → Byte
  | .imm b => b
  | .mem m => busByte (m.ea s) s

/-- The state the operand's read leaves. -/
def Source.after (s : State) : Source → State
  | .imm _ => s
  | .mem m => afterRead (m.ea s) s

/-- The page-crossed flag. -/
def Source.crossed (s : State) : Source → Bool
  | .imm _ => false
  | .mem m => m.crossed s

/-- A form of a reading instruction: base cycles, whether the row carries `+p`, the operand. -/
structure ReadForm where
  instr : Instr
  base : Nat
  plus : Bool
  src : Source
  deriving DecidableEq, Repr

/-- The state such a form leaves when its effect on the CPU is `g`: the read's own effect, then `g` of
the operand, and the cycles. -/
def ReadForm.result (f : ReadForm) (g : Byte → Cpu → Cpu) (s : State) : State :=
  { f.src.after s with
    cpu :=
      { g (f.src.value s) (f.src.after s).cpu with
        cycles := f.base + (if f.plus && f.src.crossed s then 1 else 0) } }

/-- The eight forms LDA, ADC, SBC, AND, ORA, EOR and CMP have, with their cycles (R140, R170 to R175). -/
def eightForms (imm zp zpx : Byte → Instr) (abs abx aby : Addr → Instr) (izx izy : Byte → Instr)
    (b : Byte) (w : Addr) : List ReadForm :=
  [⟨imm b, 2, false, .imm b⟩, ⟨zp b, 3, false, .mem (.zp b)⟩, ⟨zpx b, 4, false, .mem (.zpx b)⟩,
   ⟨abs w, 4, false, .mem (.abs w)⟩, ⟨abx w, 4, true, .mem (.abx w)⟩, ⟨aby w, 4, true, .mem (.aby w)⟩,
   ⟨izx b, 6, false, .mem (.izx b)⟩, ⟨izy b, 5, true, .mem (.izy b)⟩]

/-- LDA (R140). -/
def ldaForms := eightForms .ldaImm .ldaZp .ldaZpx .ldaAbs .ldaAbx .ldaAby .ldaIzx .ldaIzy
/-- ADC (R170). -/
def adcForms := eightForms .adcImm .adcZp .adcZpx .adcAbs .adcAbx .adcAby .adcIzx .adcIzy
/-- SBC (R171). -/
def sbcForms := eightForms .sbcImm .sbcZp .sbcZpx .sbcAbs .sbcAbx .sbcAby .sbcIzx .sbcIzy
/-- AND (R172). -/
def andForms := eightForms .andImm .andZp .andZpx .andAbs .andAbx .andAby .andIzx .andIzy
/-- ORA (R173). -/
def oraForms := eightForms .oraImm .oraZp .oraZpx .oraAbs .oraAbx .oraAby .oraIzx .oraIzy
/-- EOR (R174). -/
def eorForms := eightForms .eorImm .eorZp .eorZpx .eorAbs .eorAbx .eorAby .eorIzx .eorIzy
/-- CMP (R175). -/
def cmpForms := eightForms .cmpImm .cmpZp .cmpZpx .cmpAbs .cmpAbx .cmpAby .cmpIzx .cmpIzy

/-- LDX (R141). -/
def ldxForms (b : Byte) (w : Addr) : List ReadForm :=
  [⟨.ldxImm b, 2, false, .imm b⟩, ⟨.ldxZp b, 3, false, .mem (.zp b)⟩, ⟨.ldxZpy b, 4, false, .mem (.zpy b)⟩,
   ⟨.ldxAbs w, 4, false, .mem (.abs w)⟩, ⟨.ldxAby w, 4, true, .mem (.aby w)⟩]
/-- LDY (R142). -/
def ldyForms (b : Byte) (w : Addr) : List ReadForm :=
  [⟨.ldyImm b, 2, false, .imm b⟩, ⟨.ldyZp b, 3, false, .mem (.zp b)⟩, ⟨.ldyZpx b, 4, false, .mem (.zpx b)⟩,
   ⟨.ldyAbs w, 4, false, .mem (.abs w)⟩, ⟨.ldyAbx w, 4, true, .mem (.abx w)⟩]
/-- CPX (R176). -/
def cpxForms (b : Byte) (w : Addr) : List ReadForm :=
  [⟨.cpxImm b, 2, false, .imm b⟩, ⟨.cpxZp b, 3, false, .mem (.zp b)⟩, ⟨.cpxAbs w, 4, false, .mem (.abs w)⟩]
/-- CPY (R177). -/
def cpyForms (b : Byte) (w : Addr) : List ReadForm :=
  [⟨.cpyImm b, 2, false, .imm b⟩, ⟨.cpyZp b, 3, false, .mem (.zp b)⟩, ⟨.cpyAbs w, 4, false, .mem (.abs w)⟩]
/-- BIT (R178). -/
def bitForms (b : Byte) (w : Addr) : List ReadForm :=
  [⟨.bitZp b, 3, false, .mem (.zp b)⟩, ⟨.bitAbs w, 4, false, .mem (.abs w)⟩]

/-- A form of a store: base cycles, addressing mode, the byte stored. -/
structure StoreForm where
  instr : Instr
  base : Nat
  mode : AddrMode
  val : Cpu → Byte

/-- STA, STX, STY (R143, R144, R145). -/
def storeForms (b : Byte) (w : Addr) : List StoreForm :=
  [⟨.staZp b, 3, .zp b, Cpu.a⟩, ⟨.staZpx b, 4, .zpx b, Cpu.a⟩, ⟨.staAbs w, 4, .abs w, Cpu.a⟩,
   ⟨.staAbx w, 5, .abx w, Cpu.a⟩, ⟨.staAby w, 5, .aby w, Cpu.a⟩, ⟨.staIzx b, 6, .izx b, Cpu.a⟩,
   ⟨.staIzy b, 6, .izy b, Cpu.a⟩, ⟨.stxZp b, 3, .zp b, Cpu.x⟩, ⟨.stxZpy b, 4, .zpy b, Cpu.x⟩,
   ⟨.stxAbs w, 4, .abs w, Cpu.x⟩, ⟨.styZp b, 3, .zp b, Cpu.y⟩, ⟨.styZpx b, 4, .zpx b, Cpu.y⟩,
   ⟨.styAbs w, 4, .abs w, Cpu.y⟩]

/-- Where a read-modify-write acts: the accumulator, or the byte at an effective address. -/
inductive Place where
  | acc
  | mem (m : AddrMode)
  deriving DecidableEq, Repr

/-- The old byte. -/
def Place.old (s : State) : Place → Byte
  | .acc => s.cpu.a
  | .mem m => busByte (m.ea s) s

/-- The state after the new byte is written: for memory, one read and one write of the same address. -/
def Place.store (base : Nat) (r : Byte) (s : State) : Place → State
  | .acc => { s with cpu := { s.cpu with a := r, cycles := base } }
  | .mem m => memWrite (m.ea s) r (tally base (afterRead (m.ea s) s))

/-- A form of a read-modify-write. -/
structure ModifyForm where
  instr : Instr
  base : Nat
  place : Place
  deriving DecidableEq, Repr

/-- The four memory forms INC, DEC and the shifts have, with their cycles. -/
def fourForms (zp zpx : Byte → Instr) (abs abx : Addr → Instr) (b : Byte) (w : Addr) : List ModifyForm :=
  [⟨zp b, 5, .mem (.zp b)⟩, ⟨zpx b, 6, .mem (.zpx b)⟩, ⟨abs w, 6, .mem (.abs w)⟩, ⟨abx w, 7, .mem (.abx w)⟩]

/-- INC (R190). -/
def incForms := fourForms .incZp .incZpx .incAbs .incAbx
/-- DEC (R191). -/
def decForms := fourForms .decZp .decZpx .decAbs .decAbx
/-- ASL (R196). -/
def aslForms (b : Byte) (w : Addr) : List ModifyForm :=
  ⟨.aslAcc, 2, .acc⟩ :: fourForms .aslZp .aslZpx .aslAbs .aslAbx b w
/-- LSR (R197). -/
def lsrForms (b : Byte) (w : Addr) : List ModifyForm :=
  ⟨.lsrAcc, 2, .acc⟩ :: fourForms .lsrZp .lsrZpx .lsrAbs .lsrAbx b w
/-- ROL (R198). -/
def rolForms (b : Byte) (w : Addr) : List ModifyForm :=
  ⟨.rolAcc, 2, .acc⟩ :: fourForms .rolZp .rolZpx .rolAbs .rolAbx b w
/-- ROR (R199). -/
def rorForms (b : Byte) (w : Addr) : List ModifyForm :=
  ⟨.rorAcc, 2, .acc⟩ :: fourForms .rorZp .rorZpx .rorAbs .rorAbx b w

/-- The state with C, Z and N set after a shift with carry out `k` and result `r`. -/
def shifted (k : Bool) (r : Byte) (t : State) : State :=
  { t with cpu := { t.cpu with c := k, z := isZero r, n := isNeg r } }

/-- The read-modify-write forms that act on memory. -/
def memoryModifyForms (b : Byte) (w : Addr) : List ModifyForm :=
  incForms b w ++ decForms b w ++ fourForms .aslZp .aslZpx .aslAbs .aslAbx b w ++
    fourForms .lsrZp .lsrZpx .lsrAbs .lsrAbx b w ++ fourForms .rolZp .rolZpx .rolAbs .rolAbx b w ++
    fourForms .rorZp .rorZpx .rorAbs .rorAbx b w

/-- The eight branches and the condition each takes (R215 to R222). -/
def branches : List ((Int → Instr) × (Cpu → Bool)) :=
  [(.bcc, fun c => !c.c), (.bcs, fun c => c.c), (.beq, fun c => c.z), (.bmi, fun c => c.n),
   (.bne, fun c => !c.z), (.bpl, fun c => !c.n), (.bvc, fun c => !c.v), (.bvs, fun c => c.v)]

/-- The mnemonic of an instruction, from its row. -/
def mnemonic (i : Instr) : String :=
  match rowOf ((encode i).headD 0) with
  | some r => r.mnemonic
  | none => ""

/-- The 105 undefined opcode bytes (R112). -/
def undefinedOpcodes : List Byte :=
  [0x02, 0x03, 0x04, 0x07, 0x0B, 0x0C, 0x0F, 0x12, 0x13, 0x14, 0x17, 0x1A, 0x1B, 0x1C, 0x1F, 0x22, 0x23,
   0x27, 0x2B, 0x2F, 0x32, 0x33, 0x34, 0x37, 0x3A, 0x3B, 0x3C, 0x3F, 0x42, 0x43, 0x44, 0x47, 0x4B, 0x4F,
   0x52, 0x53, 0x54, 0x57, 0x5A, 0x5B, 0x5C, 0x5F, 0x62, 0x63, 0x64, 0x67, 0x6B, 0x6F, 0x72, 0x73, 0x74] ++
  [0x77, 0x7A, 0x7B, 0x7C, 0x7F, 0x80, 0x82, 0x83, 0x87, 0x89, 0x8B, 0x8F, 0x92, 0x93, 0x97, 0x9B, 0x9C,
   0x9E, 0x9F, 0xA3, 0xA7, 0xAB, 0xAF, 0xB2, 0xB3, 0xB7, 0xBB, 0xBF, 0xC2, 0xC3, 0xC7, 0xCB, 0xCF, 0xD2,
   0xD3, 0xD4, 0xD7, 0xDA, 0xDB, 0xDC, 0xDF, 0xE2, 0xE3, 0xE7, 0xEB, 0xEF, 0xF2, 0xF3, 0xF4, 0xF7, 0xFA] ++
  [0xFB, 0xFC, 0xFF]

/-! ## The fields of `v` and `t` (10_state.md R34) -/

/-- Coarse X, bits 4:0. -/
def coarseX (v : Vram) : Nat := v.toNat % 32
/-- Coarse Y, bits 9:5. -/
def coarseY (v : Vram) : Nat := v.toNat / 32 % 32
/-- Nametable select, bits 11:10. -/
def ntSelect (v : Vram) : Nat := v.toNat / 1024 % 4
/-- Fine Y, bits 14:12. -/
def fineY (v : Vram) : Nat := v.toNat / 4096

/-! ## Parts of the PPU, for statements about a tick -/

/-- Rendering enabled on a render line (46_ppu_registers.md R253, 47_ppu_rendering.md R290). -/
def drawing (p : Ppu) : Prop :=
  (p.mask.getLsbD 3 || p.mask.getLsbD 4) = true ∧ (p.scanline ≤ 239 ∨ p.scanline = 261)

/-- The dots that shift and fetch the background (R290). -/
def backgroundDots (d : Nat) : Prop := 1 ≤ d ∧ d ≤ 256 ∨ 321 ≤ d ∧ d ≤ 336

/-- The background's shifters, latches and fetched bytes (10_state.md R40). -/
def background (p : Ppu) :=
  (p.bgLo, p.bgHi, p.atLo, p.atHi, p.atLatchLo, p.atLatchHi, p.ntByte, p.atBits, p.ptLo, p.ptHi)

/-- What sprite evaluation leaves: secondary OAM, its count, its sprite-0 bit, the overflow flag (R39). -/
def evaluated (p : Ppu) := (p.secOam, p.secCount, p.secHasSpr0, p.sprOverflow)

/-- `nmi_out` (46_ppu_registers.md R258). -/
def nmiWire (p : Ppu) : Bool := p.ctrl.getLsbD 7 && p.vblank

/-- The CPU after it observed the wire of `p`: a rise sets `nmi_pending` (60_exceptions.md R415). -/
def observed (p : Ppu) (c : Cpu) : Cpu :=
  { c with nmiPrev := nmiWire p, nmiPending := c.nmiPending || (nmiWire p && !c.nmiPrev) }

end Sys2Proof.Spec

open Sys2Proof Sys2Proof.Machine Sys2Proof.Spec

/-! ## Encoding and decoding -/

/-- Decoding what a well-formed instruction encodes to gives it back, with the bytes after it untouched;
every operand at every value (30_encoding.md R100, R102, R110). -/
def Obligations.DecodeOfEncodeIsTheInstruction : Prop :=
  ∀ (i : Instr) (rest : List Byte), i.wellFormed = true → decode (encode i ++ rest) = .ok (i, rest)

/-- Every byte string the decoder accepts is the encoding of a well-formed instruction and the rest: no
second encoding, no byte dropped (R100, R102, R110). The 105 bytes of R112, and no other, are rejected
as undefined opcodes (the spec's decision D8). -/
def Obligations.DecoderAcceptsExactlyTheEncodings : Prop :=
  (∀ (bs : List Byte) (i : Instr) (rest : List Byte),
    decode bs = .ok (i, rest) → i.wellFormed = true ∧ encode i ++ rest = bs) ∧
  undefinedOpcodes.length = 105 ∧
  ∀ (op : Byte) (rest : List Byte),
    decode (op :: rest) = .error (.undefinedOpcode op) ↔ op ∈ undefinedOpcodes

/-- Words written out from the encodings of R110, one of each family and each format. -/
def Obligations.SampleWordsDecode : Prop :=
  decode [0xA9, 0x00] = .ok (.ldaImm 0x00, []) ∧ decode [0x8D, 0x06, 0x20] = .ok (.staAbs 0x2006, []) ∧
  decode [0xBA] = .ok (.tsx, []) ∧ decode [0x48] = .ok (.pha, []) ∧
  decode [0x71, 0x80] = .ok (.adcIzy 0x80, []) ∧ decode [0x2C, 0x02, 0x20] = .ok (.bitAbs 0x2002, []) ∧
  decode [0xFE, 0xFF, 0x02] = .ok (.incAbx 0x02FF, []) ∧ decode [0x6A] = .ok (.rorAcc, []) ∧
  decode [0x6C, 0xFF, 0x02] = .ok (.jmpInd 0x02FF, []) ∧ decode [0xF0, 0xFC] = .ok (.beq (-4), []) ∧
  decode [0x90, 0x7F] = .ok (.bcc 127, []) ∧ decode [0x70, 0x80] = .ok (.bvs (-128), []) ∧
  decode [0xF8] = .ok (.sed, []) ∧ decode [0x00] = .ok (.brk, []) ∧ decode [0x40] = .ok (.rti, [])

/-! ## The step -/

/-- Clause 1: where the bytes at PC stand in memory and are `encode i`, a step is `exec i` with PC past
them, then the clock. Clause 2: wherever PC points, the step runs the instruction its fetches decode to,
in the state those fetches leave, PC past it (R101). -/
def Obligations.StepRunsTheDecodedInstruction : Prop :=
  (∀ (s : State) (i : Instr), s.fetchDue → i.wellFormed = true →
    (∀ k, k < (encode i).length →
      isMemory s.board (s.cpu.pc + BitVec.ofNat 16 k) = true ∧
      busByte (s.cpu.pc + BitVec.ofNat 16 k) s = (encode i).getD k 0) →
    step s = clockOut (exec i
      { s with cpu := { s.cpu with pc := s.cpu.pc + BitVec.ofNat 16 (encode i).length } })) ∧
  (∀ (s : State) (i : Instr), s.fetchDue → decode (fetchInstr s).1 = .ok (i, []) →
    step s = clockOut (exec i (fetchInstr s).2) ∧
    (fetchInstr s).2.cpu.pc = s.cpu.pc + BitVec.ofNat 16 (encode i).length)

/-- A step stops in two cases and no other: a halted CPU with no RESET due, NMI and IRQ notwithstanding
(R411, R28), and an undefined opcode byte where a fetch is due, which is named with its address (R112).
The spec's decision D8. -/
def Obligations.StepStopsExactlyOnHaltAndUndefinedOpcode : Prop :=
  (∀ s : State, s.ports.resetLine = false → s.cpu.resetPending = false → s.cpu.halted = true →
    step s = .fault (.halted s.cpu.pc)) ∧
  (∀ s : State, s.fetchDue → busByte s.cpu.pc s ∈ undefinedOpcodes →
    step s = .fault (.undefinedOpcode (busByte s.cpu.pc s) s.cpu.pc)) ∧
  (∀ s : State,
    ¬ (s.ports.resetLine = false ∧ s.cpu.resetPending = false ∧ s.cpu.halted = true) →
    ¬ (s.fetchDue ∧ busByte s.cpu.pc s ∈ undefinedOpcodes) → ∃ t, step s = .next t)

/-- RESET before NMI before IRQ before a fetch; a step that runs a sequence fetches nothing (R410,
decision D5). IRQ needs the line high and I clear (R416, decision D6); a halted CPU takes only RESET. -/
def Obligations.StepSamplesResetThenNmiThenIrq : Prop :=
  (∀ s : State, s.ports.resetLine = true ∨ s.cpu.resetPending = true →
    step s = .next (clock (resetSequence s))) ∧
  (∀ s : State, s.ports.resetLine = false → s.cpu.resetPending = false → s.cpu.halted = false →
    s.cpu.nmiPending = true → step s = .next (clock (nmiSequence s))) ∧
  (∀ s : State, s.ports.resetLine = false → s.cpu.resetPending = false → s.cpu.halted = false →
    s.cpu.nmiPending = false → s.ports.irqLine = true → s.cpu.i = false →
    step s = .next (clock (irqSequence s)))

/-- The clock after a CPU step (R395): `cyc` grows by the tally and the PPU ticks three times a cycle,
the CPU observing the NMI wire after each tick. A dot is a tick and that observation; nothing else of
the CPU, no RAM, no cartridge memory and no controller register changes. That the wire is PPUCTRL[7] and
`vblank`, and that the CPU latches a rise of it after each tick, is R258 and R415, the spec's decision D26. -/
def Obligations.ClockRunsThreeDotsPerCycle : Prop :=
  (∀ s : State, clock s = dotStep^[3 * s.cpu.cycles] { s with cpu := { s.cpu with cyc := s.cpu.cyc + s.cpu.cycles } }) ∧
  (∀ s : State, (clock s).ppu = (Ppu.tick s.board)^[3 * s.cpu.cycles] s.ppu ∧ (clock s).ram = s.ram ∧
    (clock s).board = s.board ∧ (clock s).ctl = s.ctl ∧
    (clock s).cpu =
      { s.cpu with
        cyc := s.cpu.cyc + s.cpu.cycles
        nmiPrev := (clock s).cpu.nmiPrev, nmiPending := (clock s).cpu.nmiPending }) ∧
  (∀ s : State,
    let level := (s.ppu.tick s.board).ctrl.getLsbD 7 && (s.ppu.tick s.board).vblank
    (dotStep s).cpu =
      { s.cpu with nmiPrev := level, nmiPending := s.cpu.nmiPending || (level && !s.cpu.nmiPrev) })

/-! ## Exceptions -/

/-- Taking an interrupt, for NMI, IRQ and BRK (R413, R412, R414): PC's high byte, its low byte and the
status byte with bit 4 = B go to the stack, S drops by 3, I is set, PC comes from the vector, 7 cycles;
nothing else changes, but that the NMI sequence clears `nmi_pending`. -/
def Obligations.InterruptEntrySavesPcAndStatus : Prop :=
  let entered (vector : Addr) (b : Bool) (ret : Addr) (s : State) : State :=
    { s with
      ram := ((s.ram.write (pushCell s.cpu.s 0) (highByte ret)).write (pushCell s.cpu.s 1) (lowByte ret)).write
        (pushCell s.cpu.s 2) (statusByte s.cpu b)
      cpu :=
        { s.cpu with
          s := s.cpu.s - 3, i := true
          pc := word (s.board.cpuRead vector) (s.board.cpuRead (vector + 1)), cycles := 7 } }
  ∀ s : State,
    nmiSequence s = entered 0xFFFA false s.cpu.pc { s with cpu := { s.cpu with nmiPending := false } } ∧
    irqSequence s = entered 0xFFFE false s.cpu.pc s ∧
    exec .brk s = .next (entered 0xFFFE true (s.cpu.pc + 1) s)

/-- RTI pulls the status byte, ignoring bits 5 and 4, then PCL, then PCH, and continues there; nothing
else changes (R421). -/
def Obligations.RtiPullsStatusThenPc : Prop :=
  ∀ s : State,
    exec .rti s = .next
      { s with
        cpu :=
          { pulled s.cpu (s.ram.read (pullCell s.cpu.s 1)) with
            s := s.cpu.s + 3
            pc := word (s.ram.read (pullCell s.cpu.s 2)) (s.ram.read (pullCell s.cpu.s 3))
            cycles := 6 } }

/-- An RTI right after an interrupt entry resumes at the saved address with S and all six flags as they
were, wherever S stands (the stack wraps inside page 1): derived from R413 and R421. -/
def Obligations.RtiUndoesInterruptEntry : Prop :=
  ∀ (s : State) (vector : Addr) (b : Bool) (ret : Addr), vector = nmiVector ∨ vector = irqVector →
    ∃ m, exec .rti (interrupt vector b ret s) = .next
      { s with ram := m, cpu := { s.cpu with pc := ret, cycles := 6 } } ∧
      ∀ j, j ≠ pushCell s.cpu.s 0 → j ≠ pushCell s.cpu.s 1 → j ≠ pushCell s.cpu.s 2 → m.read j = s.ram.read j

/-- The RESET sequence (R417; the spec's decisions D1, D2, D32): no memory is written, S drops by 3, I is
set, PC comes from `$FFFC`, and the latches and PPU registers it names are cleared. -/
def Obligations.ResetSequenceEffect : Prop :=
  ∀ s : State,
    resetSequence s =
      { s with
        cpu :=
          { s.cpu with
            s := s.cpu.s - 3, i := true
            pc := word (s.board.cpuRead 0xFFFC) (s.board.cpuRead 0xFFFD)
            nmiPending := false, resetPending := false, halted := false, cycles := 7 }
        ppu :=
          { s.ppu with
            ctrl := 0, mask := 0, t := 0, fineX := 0, w := false, readBuffer := 0, oddFrame := false } }

/-- The power-on state of R49 (the spec's decisions D1, D3, D20, D22, D23, D28, D30), that the state after
reset is it with the blank image of log entry 3, and that the invariant holds there. Clauses that are the model's choice and
not R49's: the tally `cycles` is 0 (log entry 1: the spec gives it no value between steps), the scratch
byte `tmpLo` is 0 (log entry 2), the host's ports are empty (log entries 4, 5). A memory that reads 0
everywhere lists nothing (log entry 11). -/
def Obligations.PowerOnStateAndInvariant : Prop :=
  (∀ c : Cartridge,
    (State.powerOn c).cpu =
      { a := 0, x := 0, y := 0, s := 0, pc := 0, c := false, z := false, i := false, d := false, v := false
        n := false, nmiPrev := false, nmiPending := false, resetPending := true, halted := false
        cyc := 0, cycles := 0 } ∧
    (State.powerOn c).ppu =
      { ctrl := 0, mask := 0, vblank := false, spr0Hit := false, sprOverflow := false, oamAddr := 0
        v := 0, t := 0, fineX := 0, w := false, readBuffer := 0, ioLatch := 0
        ntRam := [], palette := [], oam := [], secOam := [], secCount := 0, secHasSpr0 := false
        bgLo := 0, bgHi := 0, atLo := 0, atHi := 0, atLatchLo := false, atLatchHi := false
        ntByte := 0, atBits := 0, ptLo := 0, ptHi := 0
        units := List.replicate 8 { patLo := 0, patHi := 0, attr := 0, xcnt := 0 }
        unitsHaveSpr0 := false, tmpLo := 0, scanline := 0, dot := 0, oddFrame := false, framebuffer := [] } ∧
    (∀ j, (State.powerOn c).ram.read j = 0) ∧ (∀ j, (State.powerOn c).ppu.ntRam.read j = 0) ∧
    (∀ j, (State.powerOn c).ppu.palette.read j = 0) ∧ (∀ j, (State.powerOn c).ppu.oam.read j = 0) ∧
    (∀ j, (State.powerOn c).ppu.secOam.read j = 0) ∧
    (∀ j, (State.powerOn c).board.prgRam.read j = 0) ∧ (∀ j, (State.powerOn c).board.chrRam.read j = 0) ∧
    (∀ x y, (State.powerOn c).ppu.framebuffer.pixel x y = 0) ∧
    (State.powerOn c).board.cart = c ∧
    (State.powerOn c).board.mmc1 = { shift := 0, count := 0, control := 0x0C, chr0 := 0, chr1 := 0, prg := 0 } ∧
    (State.powerOn c).ctl = { shift0 := 0, shift1 := 0, strobe := false } ∧
    (State.powerOn c).ports =
      { resetLine := false, irqLine := false, buttons0 := 0, buttons1 := 0, pendingInput := []
        frameCount := 0, frameOut := [] } ∧
    (c.wf = true → (State.powerOn c).wf = true)) ∧
  State.reset = State.powerOn Cartridge.blank ∧ State.reset.wf = true

/-- The first step after power-on is the RESET sequence and 21 dots: the state R451 gives, for every
cartridge (derived by the spec from its decisions D1, D2, D3). The host's ports are the model's fields
(log entries 4, 5), and a memory that reads 0 lists nothing (log entry 11). -/
def Obligations.FirstStepReachesTheNamedState : Prop :=
  ∀ c : Cartridge, ∃ t, step (State.powerOn c) = .next t ∧
    t.cpu =
      { a := 0, x := 0, y := 0, s := 0xFD
        pc := word ((State.powerOn c).board.cpuRead 0xFFFC) ((State.powerOn c).board.cpuRead 0xFFFD)
        c := false, z := false, i := true, d := false, v := false, n := false
        nmiPrev := false, nmiPending := false, resetPending := false, halted := false
        cyc := 7, cycles := 7 } ∧
    t.ppu = { Ppu.powerOn with dot := 21 } ∧ t.ram = [] ∧ t.board = (State.powerOn c).board ∧
    t.ctl = (State.powerOn c).ctl ∧ t.ports = (State.powerOn c).ports

/-- A store to PPUCTRL that sets the NMI enable during vblank is a rise of `nmi_out` if the wire was low,
and then leaves an NMI pending; with the wire already high it is no edge; clearing the enable withdraws
no NMI already pending (R252, R258, R415; decisions D26, D38). -/
def Obligations.EnablingNmiDuringVblankRaisesNmi : Prop :=
  ∀ (s : State) (a : Addr), isPort a 0 → s.ppu.vblank = true →
    ∃ t, exec (.staAbs a) s = .next t ∧ t.ppu.ctrl = s.cpu.a ∧ t.cpu.nmiPrev = s.cpu.a.getLsbD 7 ∧
      t.cpu.nmiPending = (s.cpu.nmiPending || (s.cpu.a.getLsbD 7 && !s.cpu.nmiPrev))

/-! ## Loads, stores, transfers, stack -/

/-- LDA, LDX, LDY in every form: the register is the operand byte, Z and N follow it, the read has its
own effect, a page cross costs one cycle on the `+p` rows; nothing else changes (R140, R141, R142). -/
def Obligations.LoadsPutTheOperandInTheRegister : Prop :=
  ∀ (b : Byte) (w : Addr) (s : State),
    (∀ f ∈ ldaForms b w,
      exec f.instr s = .next (f.result (fun m c => { c with a := m, z := isZero m, n := isNeg m }) s)) ∧
    (∀ f ∈ ldxForms b w,
      exec f.instr s = .next (f.result (fun m c => { c with x := m, z := isZero m, n := isNeg m }) s)) ∧
    (∀ f ∈ ldyForms b w,
      exec f.instr s = .next (f.result (fun m c => { c with y := m, z := isZero m, n := isNeg m }) s))

/-- STA, STX, STY in every form: one bus write of the register at the effective address, no read of it;
no register and no flag changes but the cycle tally (the fixed count, and the stall of a write of
`$4014`, R391, the spec's decision D13) and the NMI latches a PPU port write observes; the host's ports
are the model's fields (log entries 4, 5); every byte of memory outside the bytes a write of that address
stores to is unchanged, an OAMDATA write storing nothing while rendering (R143, R144, R145; R262, the
spec's decision D17; R390, D14). -/
def Obligations.StoresWriteOneByteAndChangeNoFlag : Prop :=
  ∀ (b : Byte) (w : Addr) (s : State), ∀ f ∈ storeForms b w,
    let t := memWrite (f.mode.ea s) (f.val s.cpu) (tally f.base s)
    exec f.instr s = .next t ∧
    t.cpu =
      { s.cpu with
        cycles := f.base + stall (f.mode.ea s) s.cpu.cyc f.base
        nmiPrev := t.cpu.nmiPrev, nmiPending := t.cpu.nmiPending } ∧
    t.ports = s.ports ∧ ∀ c, ¬ storesTo (f.mode.ea s) s c → t.cell c = s.cell c

/-- The six transfers; TXS alone leaves Z and N (R146 to R151). -/
def Obligations.TransfersCopyARegister : Prop :=
  ∀ s : State,
    exec .tax s = .next { s with cpu := { s.cpu with x := s.cpu.a, z := isZero s.cpu.a, n := isNeg s.cpu.a, cycles := 2 } } ∧
    exec .tay s = .next { s with cpu := { s.cpu with y := s.cpu.a, z := isZero s.cpu.a, n := isNeg s.cpu.a, cycles := 2 } } ∧
    exec .txa s = .next { s with cpu := { s.cpu with a := s.cpu.x, z := isZero s.cpu.x, n := isNeg s.cpu.x, cycles := 2 } } ∧
    exec .tya s = .next { s with cpu := { s.cpu with a := s.cpu.y, z := isZero s.cpu.y, n := isNeg s.cpu.y, cycles := 2 } } ∧
    exec .tsx s = .next { s with cpu := { s.cpu with x := s.cpu.s, z := isZero s.cpu.s, n := isNeg s.cpu.s, cycles := 2 } } ∧
    exec .txs s = .next { s with cpu := { s.cpu with s := s.cpu.x, cycles := 2 } }

/-- PHA writes A at `$0100 | S`, then S drops; PLA raises S, then reads there, Z and N following the byte;
S wraps inside page 1 (R160, R161, R162, R164). -/
def Obligations.PhaAndPlaUseTheStackPage : Prop :=
  ∀ s : State,
    exec .pha s = .next
      { s with ram := s.ram.write (pushCell s.cpu.s 0) s.cpu.a, cpu := { s.cpu with s := s.cpu.s - 1, cycles := 3 } } ∧
    exec .pla s = .next
      { s with
        cpu :=
          { s.cpu with
            s := s.cpu.s + 1, a := s.ram.read (pullCell s.cpu.s 1)
            z := isZero (s.ram.read (pullCell s.cpu.s 1)), n := isNeg (s.ram.read (pullCell s.cpu.s 1))
            cycles := 4 } }

/-- PHP pushes the status byte with bits 5 and 4 set; PLP takes the six flags from the pulled byte and
ignores bits 5 and 4 (R163, R165; the spec's decision D4). -/
def Obligations.PhpAndPlpMoveTheFlags : Prop :=
  ∀ s : State,
    exec .php s = .next
      { s with
        ram := s.ram.write (pushCell s.cpu.s 0) (statusByte s.cpu true)
        cpu := { s.cpu with s := s.cpu.s - 1, cycles := 3 } } ∧
    exec .plp s = .next
      { s with cpu := { pulled s.cpu (s.ram.read (pullCell s.cpu.s 1)) with s := s.cpu.s + 1, cycles := 4 } }

/-! ## Arithmetic, logic, compare -/

/-- ADC in every form: the binary sum with carry, whatever D holds; C is the unsigned overflow, V the
signed one; D and I are left (R170, R179). -/
def Obligations.AdcAddsWithCarryInBinary : Prop :=
  ∀ (b : Byte) (w : Addr) (s : State), ∀ f ∈ adcForms b w,
    exec f.instr s = .next (f.result (fun m c =>
      let sum := c.a.toNat + m.toNat + c.c.toNat
      let signed := s8 c.a + s8 m + (c.c.toNat : Int)
      { c with
        a := BitVec.ofNat 8 sum, c := decide (255 < sum), v := decide (signed < -128 ∨ 127 < signed)
        z := isZero (BitVec.ofNat 8 sum), n := isNeg (BitVec.ofNat 8 sum) }) s)

/-- SBC in every form: `A - m - (1 - C)`; C out is 1 iff no borrow occurred, V the signed overflow; D
changes nothing (R171). -/
def Obligations.SbcSubtractsWithBorrowInBinary : Prop :=
  ∀ (b : Byte) (w : Addr) (s : State), ∀ f ∈ sbcForms b w,
    exec f.instr s = .next (f.result (fun m c =>
      let borrow : Int := if c.c then 0 else 1
      let diff := (c.a.toNat : Int) - m.toNat - borrow
      let signed := s8 c.a - s8 m - borrow
      { c with
        a := BitVec.ofInt 8 diff, c := decide (0 ≤ diff), v := decide (signed < -128 ∨ 127 < signed)
        z := isZero (BitVec.ofInt 8 diff), n := isNeg (BitVec.ofInt 8 diff) }) s)

/-- AND, ORA, EOR in every form; Z and N follow A, and C and V are left (R172, R173, R174). -/
def Obligations.LogicWritesTheAccumulator : Prop :=
  ∀ (b : Byte) (w : Addr) (s : State),
    (∀ f ∈ andForms b w, exec f.instr s = .next (f.result (fun m c =>
      { c with a := c.a &&& m, z := isZero (c.a &&& m), n := isNeg (c.a &&& m) }) s)) ∧
    (∀ f ∈ oraForms b w, exec f.instr s = .next (f.result (fun m c =>
      { c with a := c.a ||| m, z := isZero (c.a ||| m), n := isNeg (c.a ||| m) }) s)) ∧
    (∀ f ∈ eorForms b w, exec f.instr s = .next (f.result (fun m c =>
      { c with a := c.a ^^^ m, z := isZero (c.a ^^^ m), n := isNeg (c.a ^^^ m) }) s))

/-- CMP, CPX, CPY in every form: C is the unsigned comparison, Z equality, N bit 7 of the wrapped
difference; V and the registers are left (R175, R176, R177, R180). -/
def Obligations.ComparesSetCarryZeroNegative : Prop :=
  ∀ (b : Byte) (w : Addr) (s : State),
    let compared (r m : Byte) (c : Cpu) : Cpu :=
      { c with
        c := decide (m.toNat ≤ r.toNat), z := decide (r.toNat = m.toNat)
        n := decide (128 ≤ (r.toNat + (256 - m.toNat)) % 256) }
    (∀ f ∈ cmpForms b w, exec f.instr s = .next (f.result (fun m c => compared c.a m c) s)) ∧
    (∀ f ∈ cpxForms b w, exec f.instr s = .next (f.result (fun m c => compared c.x m c) s)) ∧
    (∀ f ∈ cpyForms b w, exec f.instr s = .next (f.result (fun m c => compared c.y m c) s))

/-- BIT: Z from the and with A, N and V from the operand's bits 7 and 6; A and C are left (R178). -/
def Obligations.BitTestsTheOperand : Prop :=
  ∀ (b : Byte) (w : Addr) (s : State), ∀ f ∈ bitForms b w,
    exec f.instr s = .next (f.result (fun m c =>
      { c with
        z := isZero (c.a &&& m)
        n := decide (128 ≤ m.toNat), v := decide (m.toNat / 64 % 2 = 1) }) s)

/-! ## Increments and shifts -/

/-- INC and DEC in every form: one read and one write of the same address, the byte one more or one less
modulo 256, Z and N following it; C and V are left. INX, INY, DEX, DEY do the same to their register
(R190 to R195). -/
def Obligations.IncrementsAndDecrementsStepByOne : Prop :=
  ∀ (b : Byte) (w : Addr) (s : State),
    let up (r : Byte) : Byte := BitVec.ofNat 8 (r.toNat + 1)
    let down (r : Byte) : Byte := BitVec.ofNat 8 (r.toNat + 255)
    let flagged (r : Byte) (t : State) : State := { t with cpu := { t.cpu with z := isZero r, n := isNeg r } }
    (∀ f ∈ incForms b w, exec f.instr s =
      .next (flagged (up (f.place.old s)) (f.place.store f.base (up (f.place.old s)) s))) ∧
    (∀ f ∈ decForms b w, exec f.instr s =
      .next (flagged (down (f.place.old s)) (f.place.store f.base (down (f.place.old s)) s))) ∧
    exec .inx s = .next (flagged (up s.cpu.x) { s with cpu := { s.cpu with x := up s.cpu.x, cycles := 2 } }) ∧
    exec .iny s = .next (flagged (up s.cpu.y) { s with cpu := { s.cpu with y := up s.cpu.y, cycles := 2 } }) ∧
    exec .dex s = .next (flagged (down s.cpu.x) { s with cpu := { s.cpu with x := down s.cpu.x, cycles := 2 } }) ∧
    exec .dey s = .next (flagged (down s.cpu.y) { s with cpu := { s.cpu with y := down s.cpu.y, cycles := 2 } })

/-- ASL, LSR, ROL, ROR in every form, accumulator and memory: the result and the carry out as numbers, Z
and N following the result; V is left (R196 to R199). -/
def Obligations.ShiftsMoveOneBit : Prop :=
  ∀ (b : Byte) (w : Addr) (s : State),
    (∀ f ∈ aslForms b w,
      let m := (f.place.old s).toNat
      let r := BitVec.ofNat 8 (2 * m)
      exec f.instr s = .next (shifted (decide (128 ≤ m)) r (f.place.store f.base r s))) ∧
    (∀ f ∈ lsrForms b w,
      let m := (f.place.old s).toNat
      let r := BitVec.ofNat 8 (m / 2)
      exec f.instr s = .next (shifted (decide (m % 2 = 1)) r (f.place.store f.base r s))) ∧
    (∀ f ∈ rolForms b w,
      let m := (f.place.old s).toNat
      let r := BitVec.ofNat 8 (2 * m + s.cpu.c.toNat)
      exec f.instr s = .next (shifted (decide (128 ≤ m)) r (f.place.store f.base r s))) ∧
    (∀ f ∈ rorForms b w,
      let m := (f.place.old s).toNat
      let r := BitVec.ofNat 8 (m / 2 + 128 * s.cpu.c.toNat)
      exec f.instr s = .next (shifted (decide (m % 2 = 1)) r (f.place.store f.base r s)))

/-- The frame of the 24 memory forms of INC, DEC, ASL, LSR, ROL, ROR: A, X, Y, S, PC and the flags D, I, V
are unchanged, the count is the fixed one (and the stall, if the address is `$4014`: R391, the spec's
decision D13), and every byte of memory outside the bytes the one write stores to is unchanged, the write
acting in the state after the read (R200; the spec's decision D9; an OAMDATA write stores nothing while
rendering, D17; what a write of `$4014` stores to is R390, D14). The host's ports are the model's fields (log entries 4, 5). -/
def Obligations.ReadModifyWriteFrame : Prop :=
  ∀ (b : Byte) (w : Addr) (s : State), ∀ f ∈ memoryModifyForms b w, ∀ m, f.place = .mem m →
    ∃ t, exec f.instr s = .next t ∧
      t.cpu.a = s.cpu.a ∧ t.cpu.x = s.cpu.x ∧ t.cpu.y = s.cpu.y ∧ t.cpu.s = s.cpu.s ∧ t.cpu.pc = s.cpu.pc ∧
      t.cpu.d = s.cpu.d ∧ t.cpu.i = s.cpu.i ∧ t.cpu.v = s.cpu.v ∧ t.cpu.cyc = s.cpu.cyc ∧
      t.cpu.cycles = f.base + stall (m.ea s) s.cpu.cyc f.base ∧ t.ports = s.ports ∧
      ∀ c, ¬ storesTo (m.ea s) (afterRead (m.ea s) s) c → t.cell c = s.cell c

/-! ## Jumps, subroutines, branches, flags -/

/-- JMP absolute goes to its operand. JSR pushes the address of its own last byte, high byte first, and
jumps; RTS pulls the low byte, the high byte, and continues one past them (R210, R212, R213). -/
def Obligations.JumpCallAndReturn : Prop :=
  ∀ (w : Addr) (s : State),
    exec (.jmpAbs w) s = .next { s with cpu := { s.cpu with pc := w, cycles := 3 } } ∧
    exec (.jsr w) s = .next
      { s with
        ram := (s.ram.write (pushCell s.cpu.s 0) (highByte (s.cpu.pc - 1))).write (pushCell s.cpu.s 1)
          (lowByte (s.cpu.pc - 1))
        cpu := { s.cpu with s := s.cpu.s - 2, pc := w, cycles := 6 } } ∧
    exec .rts s = .next
      { s with
        cpu :=
          { s.cpu with
            s := s.cpu.s + 2
            pc := word (s.ram.read (pullCell s.cpu.s 1)) (s.ram.read (pullCell s.cpu.s 2)) + 1
            cycles := 6 } }

/-- `JMP ($nnnn)`: the high byte of the target comes from the same page as the low one (R211, R114; the
spec's decision D10); the two pointer reads have their own effects. -/
def Obligations.JmpIndirectStaysInThePage : Prop :=
  ∀ (w : Addr) (s : State),
    let second : Addr := BitVec.ofNat 16 (w.toNat / 256 * 256 + (w.toNat + 1) % 256)
    let s1 := afterRead w s
    exec (.jmpInd w) s = .next
      { afterRead second s1 with
        cpu := { (afterRead second s1).cpu with pc := word (busByte w s) (busByte second s1), cycles := 5 } }

/-- An RTS right after a JSR continues at the instruction after the JSR, S as it was, wherever S stands:
derived from R212 and R213. -/
def Obligations.RtsUndoesJsr : Prop :=
  ∀ (w : Addr) (s : State), ∃ t u, exec (.jsr w) s = .next t ∧ exec .rts t = .next u ∧ t.cpu.pc = w ∧
    u.cpu = { s.cpu with cycles := 6 } ∧ u.ppu = s.ppu ∧ u.board = s.board ∧ u.ctl = s.ctl ∧ u.ports = s.ports ∧
    ∀ j, j ≠ pushCell s.cpu.s 0 → j ≠ pushCell s.cpu.s 1 → u.ram.read j = s.ram.read j

/-- The eight branches: not taken, 2 cycles; taken, PC moves by the displacement modulo 65536, 3 cycles,
or 4 when the target is in another page than the next instruction; no flag changes (R214 to R222). -/
def Obligations.BranchesMovePcOnTheirCondition : Prop :=
  ∀ (d : Int) (s : State), ∀ f ∈ branches,
    let target : Addr := BitVec.ofInt 16 (s.cpu.pc.toNat + d)
    exec (f.1 d) s = .next
      { s with
        cpu :=
          { s.cpu with
            pc := if f.2 s.cpu then target else s.cpu.pc
            cycles :=
              if f.2 s.cpu then if target.toNat / 256 = s.cpu.pc.toNat / 256 then 3 else 4 else 2 } }

/-- CLC, SEC, CLV, CLD, SED write their one flag; NOP writes nothing; 2 cycles (R230, R231, R234 to R237). -/
def Obligations.FlagInstructionsWriteOneFlag : Prop :=
  ∀ s : State,
    exec .clc s = .next { s with cpu := { s.cpu with c := false, cycles := 2 } } ∧
    exec .sec s = .next { s with cpu := { s.cpu with c := true, cycles := 2 } } ∧
    exec .clv s = .next { s with cpu := { s.cpu with v := false, cycles := 2 } } ∧
    exec .cld s = .next { s with cpu := { s.cpu with d := false, cycles := 2 } } ∧
    exec .sed s = .next { s with cpu := { s.cpu with d := true, cycles := 2 } } ∧
    exec .nop s = .next { s with cpu := { s.cpu with cycles := 2 } }

/-- CLI and SEI write I alone, and the new value is the one the very next boundary samples: with the line
high and no RESET, NMI or Halt due, IRQ is what a step does after CLI, and not what it does after SEI
(R232, R233; the spec's decision D6). -/
def Obligations.CliAndSeiActAtTheNextBoundary : Prop :=
  ∀ s : State,
    exec .cli s = .next { s with cpu := { s.cpu with i := false, cycles := 2 } } ∧
    exec .sei s = .next { s with cpu := { s.cpu with i := true, cycles := 2 } } ∧
    (s.ports.resetLine = false → s.cpu.resetPending = false → s.cpu.halted = false →
      s.cpu.nmiPending = false → s.ports.irqLine = true →
      (∃ t, exec .cli s = .next t ∧ due t = .irq) ∧ ∃ t, exec .sei s = .next t ∧ due t = .instruction)

/-! ## Operands -/

/-- The effective address and the page-crossed flag of each mode, as numbers: zero-page sums and pointers
wrap inside page 0 (R105 to R108; the spec's decision D11), absolute sums modulo 65536. -/
def Obligations.AddressingModesGiveTheirAddress : Prop :=
  ∀ (b : Byte) (w : Addr) (s : State),
    let ptr (p : Nat) : Nat := (s.ram.read (p % 256)).toNat + 256 * (s.ram.read ((p + 1) % 256)).toNat
    ((AddrMode.zp b).ea s).toNat = b.toNat ∧
    ((AddrMode.zpx b).ea s).toNat = (b.toNat + s.cpu.x.toNat) % 256 ∧
    ((AddrMode.zpy b).ea s).toNat = (b.toNat + s.cpu.y.toNat) % 256 ∧
    (AddrMode.abs w).ea s = w ∧
    ((AddrMode.abx w).ea s).toNat = (w.toNat + s.cpu.x.toNat) % 65536 ∧
    ((AddrMode.aby w).ea s).toNat = (w.toNat + s.cpu.y.toNat) % 65536 ∧
    ((AddrMode.izx b).ea s).toNat = ptr (b.toNat + s.cpu.x.toNat) ∧
    ((AddrMode.izy b).ea s).toNat = (ptr b.toNat + s.cpu.y.toNat) % 65536 ∧
    (AddrMode.zp b).crossed s = false ∧ (AddrMode.zpx b).crossed s = false ∧
    (AddrMode.zpy b).crossed s = false ∧ (AddrMode.abs w).crossed s = false ∧
    (AddrMode.izx b).crossed s = false ∧
    (AddrMode.abx w).crossed s = decide (255 < w.toNat % 256 + s.cpu.x.toNat) ∧
    (AddrMode.aby w).crossed s = decide (255 < w.toNat % 256 + s.cpu.y.toNat) ∧
    (AddrMode.izy b).crossed s = decide (255 < ptr b.toNat % 256 + s.cpu.y.toNat)

/-! ## All instructions at once -/

/-- Every instruction completes in every state. It does not touch `cyc`; its count is the base count of
its row, one more at a page cross on a `+p` row, one or two more on a branch, 513 or 514 more only for
an instruction that writes memory (R101, R115, R470). -/
def Obligations.EveryInstructionCompletesInItsCycles : Prop :=
  ∀ (i : Instr) (s : State), ∃ t r, exec i s = .next t ∧ rowOf ((encode i).headD 0) = some r ∧
    t.cpu.cyc = s.cpu.cyc ∧
    (t.cpu.cycles = r.cycles ∨ r.penalty = .pageCross ∧ t.cpu.cycles = r.cycles + 1 ∨
      r.penalty = .branch ∧ (t.cpu.cycles = r.cycles + 1 ∨ t.cpu.cycles = r.cycles + 2) ∨
      r.mnemonic ∈ ["STA", "STX", "STY", "INC", "DEC", "ASL", "LSR", "ROL", "ROR"] ∧
        (t.cpu.cycles = r.cycles + 513 ∨ t.cpu.cycles = r.cycles + 514))

/-- Each flag changes only by the instructions the table of R24 lists for it. -/
def Obligations.FlagsChangeOnlyByTheirInstructions : Prop :=
  ∀ (i : Instr) (s : State), ∃ t, exec i s = .next t ∧
    let setNZ := ["LDA", "LDX", "LDY", "TAX", "TAY", "TXA", "TYA", "TSX", "PLA", "ADC", "SBC", "AND", "ORA",
      "EOR", "INC", "DEC", "INX", "INY", "DEX", "DEY", "ASL", "LSR", "ROL", "ROR", "BIT", "CMP", "CPX",
      "CPY", "PLP", "RTI"]
    (mnemonic i ∉ ["ADC", "SBC", "CMP", "CPX", "CPY", "ASL", "LSR", "ROL", "ROR", "CLC", "SEC", "PLP", "RTI"] →
      t.cpu.c = s.cpu.c) ∧
    (mnemonic i ∉ setNZ → t.cpu.z = s.cpu.z ∧ t.cpu.n = s.cpu.n) ∧
    (mnemonic i ∉ ["SEI", "CLI", "PLP", "RTI", "BRK"] → t.cpu.i = s.cpu.i) ∧
    (mnemonic i ∉ ["SED", "CLD", "PLP", "RTI"] → t.cpu.d = s.cpu.d) ∧
    (mnemonic i ∉ ["ADC", "SBC", "BIT", "CLV", "PLP", "RTI"] → t.cpu.v = s.cpu.v)

/-- Each register changes only by the instructions whose rules write it, memory only by stores,
read-modify-writes and pushes; no instruction changes the cartridge image, the host's ports, `halted`
or `reset_pending` (R20 to R23, R28, R50, R344 and the rules of files 40 to 45; what the ports hold is the
model's choice, log entries 4, 5). -/
def Obligations.RegistersAndMemoryChangeOnlyByTheirInstructions : Prop :=
  ∀ (i : Instr) (s : State), ∃ t, exec i s = .next t ∧
    (mnemonic i ∉ ["LDA", "TXA", "TYA", "PLA", "ADC", "SBC", "AND", "ORA", "EOR", "ASL", "LSR", "ROL", "ROR"] →
      t.cpu.a = s.cpu.a) ∧
    (mnemonic i ∉ ["LDX", "TAX", "TSX", "INX", "DEX"] → t.cpu.x = s.cpu.x) ∧
    (mnemonic i ∉ ["LDY", "TAY", "INY", "DEY"] → t.cpu.y = s.cpu.y) ∧
    (mnemonic i ∉ ["TXS", "PHA", "PHP", "PLA", "PLP", "JSR", "RTS", "BRK", "RTI"] → t.cpu.s = s.cpu.s) ∧
    (mnemonic i ∉ ["JMP", "JSR", "RTS", "BRK", "RTI", "BCC", "BCS", "BEQ", "BMI", "BNE", "BPL", "BVC", "BVS"] →
      t.cpu.pc = s.cpu.pc) ∧
    (mnemonic i ∉ ["STA", "STX", "STY", "INC", "DEC", "ASL", "LSR", "ROL", "ROR", "PHA", "PHP", "JSR", "BRK"] →
      ∀ c, t.cell c = s.cell c) ∧
    t.board.cart = s.board.cart ∧ t.ports = s.ports ∧ t.cpu.halted = s.cpu.halted ∧
    t.cpu.resetPending = s.cpu.resetPending

/-! ## The bus -/

/-- Work RAM answers at four images, the PPU ports at every eighth address of `$2000-$3FFF`, and the APU
range reads 0 and ignores writes (R63, R64, R69). That no step drives `irq_line` is the model's choice,
log entry 4: R69 says that no APU interrupt is raised, and R416 that nothing in the block drives the line. -/
def Obligations.MirrorsAndApuStub : Prop :=
  (∀ (s : State) (a : Nat) (j k : Nat) (v : Byte), a < 0x800 → j < 4 → k < 4 →
    busByte (BitVec.ofNat 16 (a + j * 0x800)) s = s.ram.read a ∧
    afterRead (BitVec.ofNat 16 (a + j * 0x800)) s = s ∧
    memWrite (BitVec.ofNat 16 (a + j * 0x800)) v s = { s with ram := s.ram.write a v } ∧
    busByte (BitVec.ofNat 16 (a + k * 0x800)) (memWrite (BitVec.ofNat 16 (a + j * 0x800)) v s) = v) ∧
  (∀ (s : State) (a : Addr) (r : Nat) (v : Byte), isPort a r →
    busByte a s = busByte (BitVec.ofNat 16 (0x2000 + r)) s ∧
    afterRead a s = afterRead (BitVec.ofNat 16 (0x2000 + r)) s ∧
    memWrite a v s = memWrite (BitVec.ofNat 16 (0x2000 + r)) v s) ∧
  (∀ (s : State) (a : Addr) (v : Byte), 0x4000 ≤ a.toNat → a.toNat ≤ 0x4017 →
    (a.toNat ≤ 0x4015 → busByte a s = 0 ∧ afterRead a s = s) ∧
    (a.toNat ≠ 0x4014 → a.toNat ≠ 0x4016 → memWrite a v s = s)) ∧
  (∀ s t : State, step s = .next t → t.ports.irqLine = s.ports.irqLine)

/-- What a read gives in each range, and that only the addresses of R76 have a read effect, which touches
no memory and no CPU register (R61, R70, R76; the spec's decisions D12, D37). At a PPU port the byte read
stays in `io_latch` and the CPU observes the NMI wire (R250, R251; D15); a write-only port gives `io_latch`
and nothing else of the PPU changes (D16); the OAM port gives the byte at OAMADDR, at any time (R261; D17).
That the CPU latches the wire then is R258 and R415 (D26). What else reads of PPUSTATUS and PPUDATA change,
and that it is nothing else, is in StatusReadClearsVblankAndToggle and DataPortReadsWritesAndAdvances. -/
def Obligations.BusReadsByRange : Prop :=
  ∀ (s : State) (a : Addr),
    (a.toNat < 0x2000 → busByte a s = s.ram.read (a.toNat % 0x800)) ∧
    (∀ r, isPort a r → busByte a s = s.ppu.portByte s.board r ∧
      (r = 0 ∨ r = 1 ∨ r = 3 ∨ r = 5 ∨ r = 6 → busByte a s = s.ppu.ioLatch ∧ (afterRead a s).ppu = s.ppu) ∧
      (r = 4 → busByte a s = s.ppu.oam.read s.ppu.oamAddr.toNat ∧
        (afterRead a s).ppu = { s.ppu with ioLatch := busByte a s }) ∧
      (afterRead a s).ppu.ioLatch = busByte a s ∧ (afterRead a s).ctl = s.ctl ∧
      (afterRead a s).cpu = observed (afterRead a s).ppu s.cpu) ∧
    (0x4018 ≤ a.toNat → a.toNat < 0x6000 → busByte a s = 0) ∧
    (0x6000 ≤ a.toNat → busByte a s = s.board.cpuRead a) ∧
    (¬ (0x2000 ≤ a.toNat ∧ a.toNat < 0x4000) → a ≠ 0x4016#16 → a ≠ 0x4017#16 → afterRead a s = s) ∧
    (afterRead a s).ram = s.ram ∧ (afterRead a s).board = s.board ∧ (afterRead a s).ports = s.ports ∧
    (∀ c, (afterRead a s).cell c = s.cell c) ∧
    (afterRead a s).cpu =
      { s.cpu with nmiPrev := (afterRead a s).cpu.nmiPrev, nmiPending := (afterRead a s).cpu.nmiPending }

/-- What a write reaches in each range, and that nothing but what the range names changes (R62; that
`$4017` is ignored is the spec's decision D31). At a PPU port every write puts its byte in `io_latch` and
the CPU observes the NMI wire (R250, R251; D15, D26); PPUCTRL keeps the byte and puts its low two bits in
`t[11:10]` (R252), PPUMASK and OAMADDR keep it (R253, R260), PPUSTATUS does nothing else (R255), OAMDATA
stores unless rendering is in progress (R262; D17); what the last three ports set is in
ScrollAndAddressWritesSetT and DataPortReadsWritesAndAdvances, and here that they set nothing else. -/
def Obligations.BusWritesByRange : Prop :=
  ∀ (s : State) (a : Addr) (v : Byte),
    (a.toNat < 0x2000 → memWrite a v s = { s with ram := s.ram.write (a.toNat % 0x800) v }) ∧
    (∀ r, isPort a r → (memWrite a v s).ppu = s.ppu.afterPortWrite s.board r v ∧
      (memWrite a v s).board = s.ppu.boardAfterPortWrite s.board r v ∧
      (memWrite a v s).ram = s.ram ∧ (memWrite a v s).ctl = s.ctl ∧ (memWrite a v s).ports = s.ports ∧
      (memWrite a v s).cpu = observed (memWrite a v s).ppu s.cpu ∧ (r ≠ 7 → (memWrite a v s).board = s.board) ∧
      let p := (memWrite a v s).ppu
      p.ioLatch = v ∧
      (r = 0 → p = { s.ppu with ctrl := v, t := p.t, ioLatch := v } ∧
        ∀ j, j < 15 → p.t.getLsbD j = if j = 10 ∨ j = 11 then v.getLsbD (j - 10) else s.ppu.t.getLsbD j) ∧
      (r = 1 → p = { s.ppu with mask := v, ioLatch := v }) ∧
      (r = 2 → p = { s.ppu with ioLatch := v }) ∧
      (r = 3 → p = { s.ppu with oamAddr := v, ioLatch := v }) ∧
      (r = 4 → drawing s.ppu → p = { s.ppu with ioLatch := v }) ∧
      (r = 4 → ¬ drawing s.ppu →
        p = { s.ppu with
              oam := s.ppu.oam.write s.ppu.oamAddr.toNat v, oamAddr := s.ppu.oamAddr + 1, ioLatch := v }) ∧
      (r = 5 ∨ r = 6 → p = { s.ppu with v := p.v, t := p.t, fineX := p.fineX, w := p.w, ioLatch := v }) ∧
      (r = 7 → p = { s.ppu with v := p.v, ntRam := p.ntRam, palette := p.palette, ioLatch := v })) ∧
    (a = 0x4016#16 → memWrite a v s =
      { s with
        ctl := { strobe := decide (v.toNat % 2 = 1), shift0 := s.ports.buttons0, shift1 := s.ports.buttons1 } }) ∧
    (0x4000 ≤ a.toNat → a.toNat < 0x4020 → a ≠ 0x4014#16 → a ≠ 0x4016#16 → memWrite a v s = s) ∧
    (0x4020 ≤ a.toNat → memWrite a v s = { s with board := s.board.cpuWrite a v })

/-! ## The PPU's ports -/

/-- A read of PPUSTATUS or an image of it: the three flags over the low five bits of the latch; then
`vblank` and `w` are clear and the other two flags stand; a second read shows bit 7 clear; an NMI already
pending is not withdrawn (R254, R251; the spec's decisions D15, D26). -/
def Obligations.StatusReadClearsVblankAndToggle : Prop :=
  ∀ (s : State) (a : Addr), isPort a 2 →
    (busByte a s).toNat = 128 * s.ppu.vblank.toNat + 64 * s.ppu.spr0Hit.toNat + 32 * s.ppu.sprOverflow.toNat +
      s.ppu.ioLatch.toNat % 32 ∧
    (afterRead a s).ppu = { s.ppu with vblank := false, w := false, ioLatch := busByte a s } ∧
    (afterRead a s).cpu.nmiPending = s.cpu.nmiPending ∧
    (busByte a (afterRead a s)).getLsbD 7 = false

/-- PPUSCROLL and PPUADDR, bit by bit: two writes gated by the one toggle `w`; only PPUADDR's second write
changes `v` (R263, R264). -/
def Obligations.ScrollAndAddressWritesSetT : Prop :=
  ∀ (s : State) (a : Addr) (val : Byte),
    let p := (memWrite a val s).ppu
    (isPort a 5 → s.ppu.w = false →
      (∀ j, j < 15 → p.t.getLsbD j = if j < 5 then val.getLsbD (j + 3) else s.ppu.t.getLsbD j) ∧
      p.fineX.toNat = val.toNat % 8 ∧ p.w = true ∧ p.v = s.ppu.v) ∧
    (isPort a 5 → s.ppu.w = true →
      (∀ j, j < 15 → p.t.getLsbD j =
        if 12 ≤ j then val.getLsbD (j - 12) else if 5 ≤ j ∧ j < 10 then val.getLsbD (j - 2)
        else s.ppu.t.getLsbD j) ∧
      p.fineX = s.ppu.fineX ∧ p.w = false ∧ p.v = s.ppu.v) ∧
    (isPort a 6 → s.ppu.w = false →
      (∀ j, j < 15 → p.t.getLsbD j =
        if j = 14 then false else if 8 ≤ j then val.getLsbD (j - 8) else s.ppu.t.getLsbD j) ∧
      p.fineX = s.ppu.fineX ∧ p.w = true ∧ p.v = s.ppu.v) ∧
    (isPort a 6 → s.ppu.w = true →
      (∀ j, j < 15 → p.t.getLsbD j = if j < 8 then val.getLsbD j else s.ppu.t.getLsbD j) ∧
      p.fineX = s.ppu.fineX ∧ p.w = false ∧ p.v = p.t)

/-- PPUDATA: a write stores at `v & $3FFF` and a read returns the buffer below `$3F00` and the palette
entry above, refilling the buffer from the address or from the nametable under the palette; both advance
`v` by 1 or 32 modulo 2^15, and a read changes nothing of the PPU but `v`, the buffer and `io_latch`, which
takes the byte read (R251, R265, R266, R267; the spec's decisions D15, D18, D19). -/
def Obligations.DataPortReadsWritesAndAdvances : Prop :=
  ∀ (s : State) (a : Addr) (val : Byte), isPort a 7 →
    let at' := s.ppu.v.toNat % 0x4000
    let next := (s.ppu.v.toNat + if s.ppu.ctrl.toNat / 4 % 2 = 1 then 32 else 1) % 0x8000
    (memWrite a val s).ppu.v.toNat = next ∧ (afterRead a s).ppu.v.toNat = next ∧
    (at' < 0x2000 → (memWrite a val s).board = s.board.ppuWrite (BitVec.ofNat 14 at') val) ∧
    (0x2000 ≤ at' → (memWrite a val s).board = s.board ∧
      ppuRead s.board (memWrite a val s).ppu (BitVec.ofNat 14 at') =
        if at' < 0x3F00 then val else BitVec.ofNat 8 (val.toNat % 64)) ∧
    (at' < 0x3F00 → busByte a s = s.ppu.readBuffer ∧
      (afterRead a s).ppu.readBuffer = ppuRead s.board s.ppu (BitVec.ofNat 14 at')) ∧
    (0x3F00 ≤ at' → busByte a s = ppuRead s.board s.ppu (BitVec.ofNat 14 at') ∧
      (afterRead a s).ppu.readBuffer = ppuRead s.board s.ppu (BitVec.ofNat 14 (at' - 0x1000))) ∧
    (afterRead a s).ppu =
      { s.ppu with
        v := (afterRead a s).ppu.v, readBuffer := (afterRead a s).ppu.readBuffer, ioLatch := busByte a s }

/-- The physical page of a nametable address under each mirroring, which mirroring each mapper answers,
and the four palette entries that alias (R86, R87, R345, R356). That a palette write keeps six bits is
R84 and R85, the spec's decision D19. -/
def Obligations.NametableAndPaletteMirrors : Prop :=
  (∀ a : PpuAddr, 0x2000 ≤ a.toNat → a.toNat < 0x3F00 →
    let table := a.toNat / 1024 % 4
    let off := a.toNat % 1024
    ntIndex .horizontal a = (if table = 0 ∨ table = 1 then 0 else 1) * 1024 + off ∧
    ntIndex .vertical a = (if table = 0 ∨ table = 2 then 0 else 1) * 1024 + off ∧
    ntIndex .singleLo a = off ∧ ntIndex .singleHi a = 1024 + off) ∧
  (∀ b : Board,
    (b.cart.mapper = .nrom → b.mirroring = if b.cart.hdrMirroring = .horizontal then .horizontal else .vertical) ∧
    (b.cart.mapper = .mmc1 →
      (b.mmc1.control.toNat % 4 = 0 → b.mirroring = .singleLo) ∧
      (b.mmc1.control.toNat % 4 = 1 → b.mirroring = .singleHi) ∧
      (b.mmc1.control.toNat % 4 = 2 → b.mirroring = .vertical) ∧
      (b.mmc1.control.toNat % 4 = 3 → b.mirroring = .horizontal) ∧
      (b.mmc1 = Mmc1.powerOn → b.mirroring = .singleLo))) ∧
  (∀ i : BitVec 5, (palIndex i).toNat =
    if i.toNat = 16 ∨ i.toNat = 20 ∨ i.toNat = 24 ∨ i.toNat = 28 then i.toNat - 16 else i.toNat) ∧
  (∀ (b : Board) (p : Ppu) (val : Byte) (i j : Nat), i < 32 → j < 32 → (palIndex (BitVec.ofNat 5 i) = palIndex (BitVec.ofNat 5 j)) →
    ppuRead b (ppuWriteRam b p (BitVec.ofNat 14 (0x3F00 + i)) val) (BitVec.ofNat 14 (0x3F00 + j)) =
      BitVec.ofNat 8 (val.toNat % 64))

/-- OAMDATA writes are discarded while rendering is in progress and otherwise store and advance OAMADDR;
reads change neither (R259, R261, R262; the spec's decision D17). A write of `$4014` fills all of OAM
from the page it names, in order from OAMADDR, leaves OAMADDR, adds the stall, and stores even while
rendering; each byte is the read of its source address after the reads before it, and outside the pages
of the ports that is the byte there before the write (R390, R391; decisions D13, D14). -/
def Obligations.OamPortAndDma : Prop :=
  (∀ (s : State) (a : Addr) (val : Byte), isPort a 4 →
    busByte a s = s.ppu.oam.read s.ppu.oamAddr.toNat ∧ (afterRead a s).ppu.oamAddr = s.ppu.oamAddr ∧
    (((s.ppu.mask.getLsbD 3 || s.ppu.mask.getLsbD 4) = true ∧ (s.ppu.scanline ≤ 239 ∨ s.ppu.scanline = 261)) →
      (memWrite a val s).ppu.oam = s.ppu.oam ∧ (memWrite a val s).ppu.oamAddr = s.ppu.oamAddr) ∧
    (¬ ((s.ppu.mask.getLsbD 3 || s.ppu.mask.getLsbD 4) = true ∧ (s.ppu.scanline ≤ 239 ∨ s.ppu.scanline = 261)) →
      (memWrite a val s).ppu.oam = s.ppu.oam.write s.ppu.oamAddr.toNat val ∧
      (memWrite a val s).ppu.oamAddr = s.ppu.oamAddr + 1)) ∧
  (∀ (s : State) (val : Byte),
    (memWrite 0x4014 val s).ppu.oamAddr = s.ppu.oamAddr ∧
    (memWrite 0x4014 val s).cpu.cycles = s.cpu.cycles + stall 0x4014 s.cpu.cyc s.cpu.cycles ∧
    (∀ i, i < 256 → (memWrite 0x4014 val s).ppu.oam.read ((s.ppu.oamAddr.toNat + i) % 256) =
      busByte (word (BitVec.ofNat 8 i) val) (dmaCopy val i 0 s)) ∧
    (val.toNat < 0x20 ∨ 0x41 ≤ val.toNat → ∀ i, i < 256 →
      (memWrite 0x4014 val s).ppu.oam.read ((s.ppu.oamAddr.toNat + i) % 256) =
        busByte (word (BitVec.ofNat 8 i) val) s))

/-! ## The raster and the picture -/

/-- The raster position after a tick (R291, R292; the spec's decisions D20, D21), and a whole frame with
rendering disabled: position `n` dots on, the PPU's addresses, shifters, sprite units and OAM untouched,
every pixel the backdrop, and after 89,342 dots the next frame's first position (R332, R326, R471;
decision D25). The backdrop's colour, greyed if the mask says so, is R325 (decision D30). -/
def Obligations.RasterAdvancesAndBlankFrame : Prop :=
  (∀ (b : Board) (p : Ppu), p.scanline ≤ 261 → p.dot ≤ 340 →
    let ren := p.mask.getLsbD 3 || p.mask.getLsbD 4
    let skip := p.scanline = 261 ∧ p.dot = 339 ∧ p.oddFrame = true ∧ ren = true
    let last := p.scanline = 261 ∧ p.dot = 340
    (skip ∨ last → (p.tick b).scanline = 0 ∧ (p.tick b).dot = 0 ∧ (p.tick b).oddFrame = !p.oddFrame) ∧
    (¬ skip → ¬ last → (p.tick b).oddFrame = p.oddFrame ∧
      (p.tick b).scanline * 341 + (p.tick b).dot = p.scanline * 341 + p.dot + 1 ∧ (p.tick b).dot ≤ 340)) ∧
  (∀ (b : Board) (p : Ppu) (n : Nat), p.scanline = 0 → p.dot = 0 →
    (p.mask.getLsbD 3 || p.mask.getLsbD 4) = false → n ≤ 89342 →
    let q := (Ppu.tick b)^[n] p
    (n < 89342 → q.scanline = n / 341 ∧ q.dot = n % 341 ∧ q.oddFrame = p.oddFrame) ∧
    (n = 89342 → q.scanline = 0 ∧ q.dot = 0 ∧ q.oddFrame = !p.oddFrame) ∧
    q.v = p.v ∧ q.t = p.t ∧ q.bgLo = p.bgLo ∧ q.bgHi = p.bgHi ∧ q.atLo = p.atLo ∧ q.atHi = p.atHi ∧
    q.units = p.units ∧ q.oam = p.oam ∧ q.secOam = p.secOam ∧ q.oamAddr = p.oamAddr ∧
    (n = 89342 → ∀ x y, x < 256 → y < 240 →
      q.framebuffer.pixel x y =
        if p.mask.getLsbD 0 then p.palette.read 0 &&& 0x30 else p.palette.read 0))

/-- What certain dots do, whatever else they do: `vblank` is set at (241, 1), which raises the NMI wire
if it is enabled (R258; the spec's decision D26), and cleared at (261, 1), where the two sprite flags are
cleared too, rendering or not; no other dot touches `vblank` or clears a sprite flag (R296, R297). OAMADDR
is 0 after each of the dots 257 to 320 of a render line with rendering enabled (R318). -/
def Obligations.VblankAndOamAddrDots : Prop :=
  ∀ (b : Board) (p : Ppu),
    (p.scanline = 241 → p.dot = 1 → (p.tick b).vblank = true ∧ (p.tick b).nmiOut = p.ctrl.getLsbD 7) ∧
    (p.scanline = 261 → p.dot = 1 →
      (p.tick b).vblank = false ∧ (p.tick b).spr0Hit = false ∧ (p.tick b).sprOverflow = false) ∧
    (¬ (p.scanline = 241 ∧ p.dot = 1) → ¬ (p.scanline = 261 ∧ p.dot = 1) → (p.tick b).vblank = p.vblank) ∧
    (¬ (p.scanline = 261 ∧ p.dot = 1) →
      (p.spr0Hit = true → (p.tick b).spr0Hit = true) ∧ (p.sprOverflow = true → (p.tick b).sprOverflow = true)) ∧
    ((p.mask.getLsbD 3 || p.mask.getLsbD 4) = true → (p.scanline ≤ 239 ∨ p.scanline = 261) →
      257 ≤ p.dot → p.dot ≤ 320 → (p.tick b).oamAddr = 0)

/-- The four movements of `v`, on its fields and bit by bit (R304 to R307), and when each happens: on a
render line with rendering enabled, by the dot (R290, R300; the spec's decisions D20, D22); `v` is left
alone everywhere else. -/
def Obligations.ScrollArithmeticOnFields : Prop :=
  (∀ v : Vram,
    coarseX (incCoarseX v) = (coarseX v + 1) % 32 ∧ coarseY (incCoarseX v) = coarseY v ∧
    fineY (incCoarseX v) = fineY v ∧
    ntSelect (incCoarseX v) =
      if coarseX v = 31 then (if ntSelect v % 2 = 0 then ntSelect v + 1 else ntSelect v - 1) else ntSelect v) ∧
  (∀ v : Vram,
    fineY (incFineY v) = (fineY v + 1) % 8 ∧ coarseX (incFineY v) = coarseX v ∧
    coarseY (incFineY v) =
      (if fineY v < 7 then coarseY v else if coarseY v = 29 ∨ coarseY v = 31 then 0 else coarseY v + 1) ∧
    ntSelect (incFineY v) =
      if fineY v = 7 ∧ coarseY v = 29 then (ntSelect v + 2) % 4 else ntSelect v) ∧
  (∀ (v t : Vram) (j : Nat), j < 15 →
    (copyHorizontal v t).getLsbD j = (if j < 5 ∨ j = 10 then t.getLsbD j else v.getLsbD j) ∧
    (copyVertical v t).getLsbD j = if 5 ≤ j ∧ j ≠ 10 then t.getLsbD j else v.getLsbD j) ∧
  (∀ (b : Board) (p : Ppu),
    let active := (p.mask.getLsbD 3 || p.mask.getLsbD 4) = true ∧ (p.scanline ≤ 239 ∨ p.scanline = 261)
    (p.tick b).v =
      if ¬ active then p.v
      else if p.dot = 256 then incFineY (incCoarseX p.v)
      else if p.dot = 257 then copyHorizontal p.v p.t
      else if p.scanline = 261 ∧ 280 ≤ p.dot ∧ p.dot ≤ 304 then copyVertical p.v p.t
      else if p.dot % 8 = 0 ∧ (1 ≤ p.dot ∧ p.dot < 256 ∨ 321 ≤ p.dot ∧ p.dot ≤ 336) then incCoarseX p.v
      else p.v)

/-- The background's addresses and attribute bits in the fields of `v` (R301, R302), the two bit planes
with bit 7 of each byte the leftmost pixel (R303), by the phase of the dot, nothing on the even phases
(R300), the shift of the four shifters, the pattern ones filled with 0 and the attribute ones from their
latches (R308), that a tick of a background dot does this shift and then this fetch and any other tick
neither (R290; the spec's decision D22), and the pixel fine X selects, 0 where the layer is off or
clipped (R310). -/
def Obligations.BackgroundFetchShiftAndPixel : Prop :=
  ∀ (b : Board) (p : Ppu) (attr : Byte) (d x : Nat),
    let q := p.backgroundFetch b d
    let f := p.fineX.toNat
    p.ntAddr.toNat = 0x2000 + p.v.toNat % 4096 ∧
    p.atAddr.toNat = 0x23C0 + 0x400 * ntSelect p.v + 8 * (coarseY p.v / 4) + coarseX p.v / 4 ∧
    (p.atSelect attr).toNat =
      attr.toNat / 2 ^ (4 * (coarseY p.v / 2 % 2) + 2 * (coarseX p.v / 2 % 2)) % 4 ∧
    p.patAddr.toNat = (if p.ctrl.getLsbD 4 then 0x1000 else 0) + 16 * p.ntByte.toNat + fineY p.v ∧
    ((d - 1) % 8 % 2 = 0 → q = p) ∧
    ((d - 1) % 8 = 1 → q = { p with ntByte := ppuRead b p p.ntAddr }) ∧
    ((d - 1) % 8 = 3 → q = { p with atBits := p.atSelect (ppuRead b p p.atAddr) }) ∧
    ((d - 1) % 8 = 5 → q = { p with ptLo := ppuRead b p p.patAddr }) ∧
    ((d - 1) % 8 = 7 →
      q = { p with
            ptHi := ppuRead b p (p.patAddr + 8), atLatchLo := p.atBits.getLsbD 0
            atLatchHi := p.atBits.getLsbD 1, bgLo := q.bgLo, bgHi := q.bgHi, v := incCoarseX p.v } ∧
      ∀ j, j < 8 → q.bgLo.getLsbD j = p.ptLo.getLsbD j ∧ q.bgHi.getLsbD j = q.ptHi.getLsbD j ∧
        q.bgLo.getLsbD (j + 8) = p.bgLo.getLsbD (j + 8) ∧ q.bgHi.getLsbD (j + 8) = p.bgHi.getLsbD (j + 8)) ∧
    (∀ j, j < 15 → p.shiftBackground.bgLo.getLsbD (j + 1) = p.bgLo.getLsbD j ∧
      p.shiftBackground.bgHi.getLsbD (j + 1) = p.bgHi.getLsbD j) ∧
    (∀ j, j < 7 → p.shiftBackground.atLo.getLsbD (j + 1) = p.atLo.getLsbD j ∧
      p.shiftBackground.atHi.getLsbD (j + 1) = p.atHi.getLsbD j) ∧
    p.shiftBackground.bgLo.getLsbD 0 = false ∧ p.shiftBackground.bgHi.getLsbD 0 = false ∧
    p.shiftBackground.atLo.getLsbD 0 = p.atLatchLo ∧ p.shiftBackground.atHi.getLsbD 0 = p.atLatchHi ∧
    p.shiftBackground =
      { p with
        bgLo := p.shiftBackground.bgLo, bgHi := p.shiftBackground.bgHi
        atLo := p.shiftBackground.atLo, atHi := p.shiftBackground.atHi } ∧
    (drawing p → backgroundDots p.dot →
      background (p.tick b) = background (p.shiftBackground.backgroundFetch b p.dot)) ∧
    (¬ (drawing p ∧ backgroundDots p.dot) → background (p.tick b) = background p) ∧
    (p.bgPixel x).toNat =
      (if p.mask.getLsbD 3 = false ∨ x < 8 ∧ p.mask.getLsbD 1 = false then 0
        else 2 * (p.bgHi.getLsbD (15 - f)).toNat + (p.bgLo.getLsbD (15 - f)).toNat) ∧
    p.bgPalette.toNat = 2 * (p.atHi.getLsbD (7 - f)).toNat + (p.atLo.getLsbD (7 - f)).toNat

/-- Sprite evaluation: the first eight sprites of OAM whose rows cover the next line are copied in order,
`spr_overflow` is set by a ninth and never cleared here, and the sprite-0 bit says whether sprite 0 is
among them (R316, R322); a tick evaluates at dot 257 of a visible line with rendering enabled, marks
secondary OAM empty at that dot of the pre-render line, and leaves it at every other (R290; the spec's
decisions D20, D22, D23, D24). -/
def Obligations.EvaluationFindsTheFirstEightSprites : Prop :=
  (∀ (p : Ppu) (s : Nat),
    let h := if p.ctrl.getLsbD 5 then 16 else 8
    let covers (n : Nat) : Prop := (p.oam.read (4 * n)).toNat ≤ s ∧ s < (p.oam.read (4 * n)).toNat + h
    ∃ found : List Nat, found.Pairwise (· < ·) ∧ (∀ n, n ∈ found ↔ n < 64 ∧ covers n) ∧
      (p.evaluateSprites s).secCount = min 8 found.length ∧
      (∀ k j, k < min 8 found.length → j < 4 →
        (p.evaluateSprites s).secOam.read (4 * k + j) = p.oam.read (4 * found.getD k 0 + j)) ∧
      ((p.evaluateSprites s).sprOverflow = true ↔ p.sprOverflow = true ∨ 8 < found.length) ∧
      ((p.evaluateSprites s).secHasSpr0 = true ↔ 0 ∈ found) ∧ (p.evaluateSprites s).oam = p.oam) ∧
  (∀ (b : Board) (p : Ppu),
    (drawing p → p.dot = 257 → p.scanline ≤ 239 →
      evaluated (p.tick b) = evaluated (p.evaluateSprites p.scanline)) ∧
    (drawing p → p.dot = 257 → p.scanline = 261 →
      evaluated (p.tick b) = (p.secOam, 0, false, p.sprOverflow)) ∧
    (¬ (drawing p ∧ p.dot = 257) → ¬ (p.scanline = 261 ∧ p.dot = 1) →
      evaluated (p.tick b) = evaluated p))

/-- A sprite's pattern address in both sizes, flipped or not (R320); the units: the first unit that is
counted out and opaque gives the pixel, and after it every unit counts down or shifts (R321). How a unit
is loaded, as what a tick does at dots 257 to 320: slot `i` reads its low plane at phase 5 and its high
plane at phase 7, where unit `i` takes both, in reverse order under a horizontal flip, with attributes and
X from secondary OAM, or becomes transparent if the slot is empty; slot 0 takes the sprite-0 bit (R319;
the spec's decision D24; how long `tmp_lo` lives is log entry 2). At every other dot the units change only
by the advance after an emitted pixel (R290, decisions D20, D22; R323). -/
def Obligations.SpritePatternAddressAndUnits : Prop :=
  (∀ (p : Ppu) (s : Nat) (y tile attr : Byte),
    let h : Nat := if p.ctrl.getLsbD 5 then 16 else 8
    let r : Nat := (((s : Int) - y.toNat) % (h : Int)).toNat
    let row := if attr.getLsbD 7 then h - 1 - r else r
    (p.spritePatAddr s y tile attr).toNat =
      if p.ctrl.getLsbD 5 then 4096 * (tile.toNat % 2) + 32 * (tile.toNat / 2) + 16 * (row / 8) + row % 8
      else (if p.ctrl.getLsbD 3 then 4096 else 0) + 16 * tile.toNat + row) ∧
  (∀ (p : Ppu) (x : Nat),
    let shown (u : SpriteUnit) : Nat :=
      if u.xcnt = 0 then 2 * (u.patHi.getLsbD 7).toNat + (u.patLo.getLsbD 7).toNat else 0
    let off := p.mask.getLsbD 4 = false ∨ x < 8 ∧ p.mask.getLsbD 2 = false
    (off → (p.spritePixel x).pix = 0) ∧ ((∀ u ∈ p.units, shown u = 0) → (p.spritePixel x).pix = 0) ∧
    (∀ i u, ¬ off → p.units[i]? = some u → shown u ≠ 0 →
      (∀ j w, j < i → p.units[j]? = some w → shown w = 0) →
      (p.spritePixel x).pix.toNat = shown u ∧ (p.spritePixel x).pal.toNat = u.attr.toNat % 4 ∧
      (p.spritePixel x).behind = u.attr.getLsbD 5 ∧ (p.spritePixel x).fromUnit0 = decide (i = 0))) ∧
  (∀ (p : Ppu) (x y : Nat), (p.emitPixel x y).units = p.units.map (fun u =>
    if u.xcnt = 0 then
      { u with patLo := BitVec.ofNat 8 (2 * u.patLo.toNat), patHi := BitVec.ofNat 8 (2 * u.patHi.toNat) }
    else { u with xcnt := u.xcnt - 1 })) ∧
  (∀ (b : Board) (p : Ppu), drawing p → 257 ≤ p.dot → p.dot ≤ 320 →
    let i := (p.dot - 257) / 8
    let phase := (p.dot - 257) % 8
    let attr := p.secOam.read (4 * i + 2)
    let addr := p.spritePatAddr p.scanline (p.secOam.read (4 * i)) (p.secOam.read (4 * i + 1)) attr
    let turned (j : Nat) : Nat := if attr.getLsbD 6 then 7 - j else j
    let t := p.tick b
    (phase ≠ 7 → t.units = p.units) ∧
    (phase ≠ 5 ∧ phase ≠ 7 ∨ p.secCount ≤ i → t.tmpLo = p.tmpLo) ∧
    (phase = 5 → i < p.secCount → t.tmpLo = ppuRead b p addr) ∧
    (phase = 7 → i < p.secCount →
      ∃ u : SpriteUnit, t.units = p.units.set i u ∧ u.attr = attr ∧ u.xcnt = p.secOam.read (4 * i + 3) ∧
        t.tmpLo = u.patLo ∧ ∀ j, j < 8 →
          u.patLo.getLsbD j = p.tmpLo.getLsbD (turned j) ∧
          u.patHi.getLsbD j = (ppuRead b p (addr + 8)).getLsbD (turned j)) ∧
    (phase = 7 → p.secCount ≤ i →
      t.units = p.units.set i { patLo := 0, patHi := 0, attr := 0, xcnt := 0 }) ∧
    t.unitsHaveSpr0 = if p.dot = 264 then p.secHasSpr0 else p.unitsHaveSpr0) ∧
  (∀ (b : Board) (p : Ppu), ¬ (drawing p ∧ 257 ≤ p.dot ∧ p.dot ≤ 320) →
    (p.tick b).tmpLo = p.tmpLo ∧ (p.tick b).unitsHaveSpr0 = p.unitsHaveSpr0 ∧
    (drawing p → p.scanline ≤ 239 → 1 ≤ p.dot → p.dot ≤ 256 →
      (p.tick b).units = (p.emitPixel (p.dot - 1) p.scanline).units) ∧
    (¬ (drawing p ∧ p.scanline ≤ 239 ∧ 1 ≤ p.dot ∧ p.dot ≤ 256) → (p.tick b).units = p.units))

/-- The priority table: the palette index of a pixel (R324). Sprite-0 hit: the flag is set exactly by an
opaque sprite-0 pixel over an opaque background pixel before column 255, which needs both layers on and,
in the left eight columns, neither clipped, and it then stays until (261, 1) (R328). A visible dot with
rendering enabled emits that pixel at its column and line and no other (R323), in the colour of the
palette entry, its low bits masked off in greyscale (R325; the spec's decision D30), from the shifters as
they stand before that dot's shift (R290; decisions D20, D22). No other dot sets the flag (R328, R332). -/
def Obligations.PixelPriorityAndSpriteZeroHit : Prop :=
  (∀ (bg pal : BitVec 2) (sp : SpritePixel),
    (bg.toNat = 0 → sp.pix.toNat = 0 → (pixelIndex bg pal sp).toNat = 0) ∧
    (bg.toNat = 0 → sp.pix.toNat ≠ 0 → (pixelIndex bg pal sp).toNat = 16 + 4 * sp.pal.toNat + sp.pix.toNat) ∧
    (bg.toNat ≠ 0 → sp.pix.toNat = 0 → (pixelIndex bg pal sp).toNat = 4 * pal.toNat + bg.toNat) ∧
    (bg.toNat ≠ 0 → sp.pix.toNat ≠ 0 → sp.behind = false →
      (pixelIndex bg pal sp).toNat = 16 + 4 * sp.pal.toNat + sp.pix.toNat) ∧
    (bg.toNat ≠ 0 → sp.pix.toNat ≠ 0 → sp.behind = true →
      (pixelIndex bg pal sp).toNat = 4 * pal.toNat + bg.toNat)) ∧
  (∀ (b : Board) (p : Ppu), (p.mask.getLsbD 3 || p.mask.getLsbD 4) = true → p.scanline ≤ 239 →
    1 ≤ p.dot → p.dot ≤ 256 →
    let x := p.dot - 1
    let hit := (p.bgPixel x).toNat ≠ 0 ∧ (p.spritePixel x).pix.toNat ≠ 0 ∧ (p.spritePixel x).fromUnit0 = true ∧
      p.unitsHaveSpr0 = true ∧ p.dot ≤ 255
    let entry := p.palette.read (palIndex (pixelIndex (p.bgPixel x) p.bgPalette (p.spritePixel x))).toNat
    ((p.tick b).spr0Hit = true ↔ p.spr0Hit = true ∨ hit) ∧
    (hit → p.mask.getLsbD 3 = true ∧ p.mask.getLsbD 4 = true ∧
      (x < 8 → p.mask.getLsbD 1 = true ∧ p.mask.getLsbD 2 = true)) ∧
    (p.tick b).framebuffer.pixel x p.scanline = (if p.mask.getLsbD 0 then entry &&& 0x30 else entry) ∧
    ∀ x' y', (x', y') ≠ (x, p.scanline) → (p.tick b).framebuffer.pixel x' y' = p.framebuffer.pixel x' y') ∧
  (∀ (b : Board) (p : Ppu), ¬ (p.scanline = 261 ∧ p.dot = 1) → p.spr0Hit = true → (p.tick b).spr0Hit = true) ∧
  (∀ (b : Board) (p : Ppu), ¬ (drawing p ∧ p.scanline ≤ 239 ∧ 1 ≤ p.dot ∧ p.dot ≤ 256) → p.spr0Hit = false →
    (p.tick b).spr0Hit = false)

/-- A dot that ends the frame delivers the framebuffer and then samples the host's next snapshot, if it
offers one; any other dot leaves the ports alone (R331, R398, R399; the spec's decisions D30, D34; how
the host's offers and the delivery are held is log entries 4, 5). -/
def Obligations.FrameEventDeliversThenSamples : Prop :=
  ∀ s : State,
    let ends := s.ppu.scanline = 261 ∧
      (s.ppu.dot = 340 ∨ s.ppu.dot = 339 ∧ s.ppu.oddFrame = true ∧
        (s.ppu.mask.getLsbD 3 || s.ppu.mask.getLsbD 4) = true)
    (ends → (dotStep s).ports.frameOut = (dotStep s).ppu.framebuffer ∧
      (dotStep s).ports.frameCount = s.ports.frameCount + 1 ∧
      (s.ports.pendingInput = [] → (dotStep s).ports.buttons0 = s.ports.buttons0 ∧
        (dotStep s).ports.buttons1 = s.ports.buttons1) ∧
      (∀ b0 b1 rest, s.ports.pendingInput = (b0, b1) :: rest → (dotStep s).ports.buttons0 = b0 ∧
        (dotStep s).ports.buttons1 = b1 ∧ (dotStep s).ports.pendingInput = rest)) ∧
    (¬ ends → (dotStep s).ports = s.ports)

/-! ## The cartridge and the controllers -/

/-- The MMC1 serial port: five writes with bit 7 clear, anywhere in `$8000-$FFFF`, put the five bits, least
significant first, into the register the fifth address selects, and no register changes before the fifth;
a write with bit 7 set empties the shift register and forces PRG mode 3 (R350, R352; the spec's decision
D27). -/
def Obligations.Mmc1CommitsOnTheFifthWrite : Prop :=
  (∀ (s : State) (a0 a1 a2 a3 a4 : Addr) (v0 v1 v2 v3 v4 : Byte), s.board.cart.mapper = .mmc1 →
    s.board.mmc1.count = 0 → 0x8000 ≤ a0.toNat → 0x8000 ≤ a1.toNat → 0x8000 ≤ a2.toNat → 0x8000 ≤ a3.toNat →
    0x8000 ≤ a4.toNat → v0.toNat < 128 → v1.toNat < 128 → v2.toNat < 128 → v3.toNat < 128 → v4.toNat < 128 →
    let s4 := memWrite a3 v3 (memWrite a2 v2 (memWrite a1 v1 (memWrite a0 v0 s)))
    let m := s.board.mmc1
    let r : BitVec 5 := BitVec.ofNat 5
      (v0.toNat % 2 + 2 * (v1.toNat % 2) + 4 * (v2.toNat % 2) + 8 * (v3.toNat % 2) + 16 * (v4.toNat % 2))
    s4.board.mmc1 = { m with shift := s4.board.mmc1.shift, count := 4 } ∧
    memWrite a4 v4 s4 =
      { s with
        board :=
          { s.board with
            mmc1 :=
              if a4.toNat < 0xA000 then { m with control := r, shift := 0, count := 0 }
              else if a4.toNat < 0xC000 then { m with chr0 := r, shift := 0, count := 0 }
              else if a4.toNat < 0xE000 then { m with chr1 := r, shift := 0, count := 0 }
              else { m with prg := r, shift := 0, count := 0 } } }) ∧
  (∀ (s : State) (a : Addr) (v : Byte), s.board.cart.mapper = .mmc1 → 0x8000 ≤ a.toNat → 128 ≤ v.toNat →
    memWrite a v s =
      { s with
        board :=
          { s.board with
            mmc1 := { s.board.mmc1 with shift := 0, count := 0, control := s.board.mmc1.control ||| 0x0C } } })

/-- Which PRG byte answers in `$8000-$FFFF`: NROM mirrors its image (R343, decision D29); MMC1 by its PRG
mode and bank, reduced by the image's length (R353, R357, decision D28). `$6000-$7FFF` is PRG-RAM on
MMC1 and reads 0 on NROM; NROM ignores every write (R344, R354). `$4020-$5FFF` reads 0 and ignores writes
on both (R70, decisions D12, D37). An NROM image of more than two banks follows R343's formula, which is the
model's choice, log entry 13: R452 would put its vectors at the image's end. That an MMC1 image of more than
16 banks follows R353's table is the model's choice, log entry 14. -/
def Obligations.PrgWindowByMapper : Prop :=
  ∀ (b : Board) (a : Addr) (v : Byte),
    let n := b.cart.prgBanks
    let bank := b.mmc1.prg.toNat % 16
    let mode := b.mmc1.control.toNat / 4 % 4
    let byte (k : Nat) : Byte := b.cart.prg.read ((k * 16384 + a.toNat % 16384) % (n * 16384))
    (0x4020 ≤ a.toNat → a.toNat < 0x6000 → b.cpuRead a = 0 ∧ b.cpuWrite a v = b) ∧
    (b.cart.mapper = .nrom → b.cpuWrite a v = b ∧
      (0x6000 ≤ a.toNat → a.toNat < 0x8000 → b.cpuRead a = 0) ∧
      (0x8000 ≤ a.toNat → b.cpuRead a = b.cart.prg.read ((a.toNat - 0x8000) % (n * 16384)))) ∧
    (b.cart.mapper = .mmc1 →
      (0x6000 ≤ a.toNat → a.toNat < 0x8000 → b.cpuRead a = b.prgRam.read (a.toNat - 0x6000) ∧
        b.cpuWrite a v = { b with prgRam := b.prgRam.write (a.toNat - 0x6000) v }) ∧
      (0x8000 ≤ a.toNat → a.toNat < 0xC000 →
        (mode < 2 → b.cpuRead a = byte (bank - bank % 2)) ∧ (mode = 2 → b.cpuRead a = byte 0) ∧
        (mode = 3 → b.cpuRead a = byte bank)) ∧
      (0xC000 ≤ a.toNat →
        (mode < 2 → b.cpuRead a = byte (bank - bank % 2 + 1)) ∧ (mode = 2 → b.cpuRead a = byte bank) ∧
        (mode = 3 → b.cpuRead a = byte (n - 1))))

/-- Pattern memory: CHR-ROM is read and never written, CHR-RAM both; NROM's first 8 KiB (R346), MMC1's
pages by its CHR mode, reduced by the memory's length (R355, R357; the spec's decision D28). -/
def Obligations.PatternMemoryByMapper : Prop :=
  ∀ (b : Board) (a : PpuAddr) (v : Byte), a.toNat < 0x2000 →
    let low := b.mmc1.chr0.toNat - b.mmc1.chr0.toNat % 2
    let page :=
      if b.mmc1.control.toNat / 16 = 1 then
        if a.toNat < 0x1000 then b.mmc1.chr0.toNat else b.mmc1.chr1.toNat
      else if a.toNat < 0x1000 then low else low + 1
    let size := if b.cart.chrBanks = 0 then 8192 else b.cart.chrBanks * 8192
    let k := if b.cart.mapper = .nrom then a.toNat else (page * 4096 + a.toNat % 4096) % size
    (1 ≤ b.cart.chrBanks → b.ppuRead a = b.cart.chr.read k ∧ b.ppuWrite a v = b) ∧
    (b.cart.chrBanks = 0 → b.ppuRead a = b.chrRam.read k ∧
      b.ppuWrite a v = { b with chrRam := b.chrRam.write k v })

/-- Controller reads: after the strobe goes 1 then 0, the k-th read of `$4016` gives button k, and 1 from
the ninth read on; the same for `$4017` and controller 1; in strobe mode every read gives the A button;
neither port's read shifts the other controller (R381, R383, R384; the spec's decision D31). -/
def Obligations.ControllersShiftOutTheButtons : Prop :=
  (∀ (s : State) (v1 v0 : Byte) (k : Nat), v1.toNat % 2 = 1 → v0.toNat % 2 = 0 →
    let latched := memWrite 0x4016 v0 (memWrite 0x4016 v1 s)
    busByte 0x4016 ((afterRead 0x4016)^[k] latched) =
      BitVec.ofNat 8 (if k < 8 then s.ports.buttons0.toNat / 2 ^ k % 2 else 1) ∧
    busByte 0x4017 ((afterRead 0x4017)^[k] latched) =
      BitVec.ofNat 8 (if k < 8 then s.ports.buttons1.toNat / 2 ^ k % 2 else 1) ∧
    ((afterRead 0x4016)^[k] latched).ctl.shift1 = s.ports.buttons1 ∧
    ((afterRead 0x4017)^[k] latched).ctl.shift0 = s.ports.buttons0) ∧
  (∀ (s : State) (k : Nat), s.ctl.strobe = true →
    busByte 0x4016 ((afterRead 0x4016)^[k] s) = BitVec.ofNat 8 (s.ports.buttons0.toNat % 2) ∧
    busByte 0x4017 ((afterRead 0x4017)^[k] s) = BitVec.ofNat 8 (s.ports.buttons1.toNat % 2))

/-- A loaded image is the file's: header fields, PRG and CHR bytes after the header and the trainer; a
mapper other than 0 and 1 is rejected, and a loaded cartridge is well formed (R341, R342; which flags
count as unsupported is log entry 8, and that no image is rejected for its size is log entries 13, 14). -/
def Obligations.LoadedImageIsTheFile : Prop :=
  (∀ (file : List Byte) (c : Cartridge), loadINes file = .ok c →
    let data := 16 + (if (file.getD 6 0).getLsbD 2 then 512 else 0)
    file.take 4 = [0x4E, 0x45, 0x53, 0x1A] ∧ c.wf = true ∧ c.prgBanks = (file.getD 4 0).toNat ∧
    c.chrBanks = (file.getD 5 0).toNat ∧
    (c.mapper = .nrom ↔ (file.getD 7 0).toNat / 16 * 16 + (file.getD 6 0).toNat / 16 = 0) ∧
    (c.mapper = .mmc1 ↔ (file.getD 7 0).toNat / 16 * 16 + (file.getD 6 0).toNat / 16 = 1) ∧
    (c.hdrMirroring = .vertical ↔ (file.getD 6 0).getLsbD 0 = true) ∧
    (∀ j, j < c.prgBanks * 16384 → c.prg.read j = file.getD (data + j) 0) ∧
    (∀ j, j < c.chrBanks * 8192 → c.chr.read j = file.getD (data + c.prgBanks * 16384 + j) 0)) ∧
  (∀ file : List Byte, 2 ≤ (file.getD 7 0).toNat / 16 * 16 + (file.getD 6 0).toNat / 16 →
    ∃ e, loadINes file = .error e)

/-! ## The invariant -/

/-- EVERY STEP KEEPS THE INVARIANT: memories stay canonical and inside their sizes, palette mirrors hold
nothing, the raster stays in its 341 by 262 grid, the MMC1 write counter below 5, the eight sprite units
eight, cartridge RAM only where it exists (10_state.md R29 to R47). -/
def Obligations.StepKeepsTheStateWellFormed : Prop :=
  ∀ s t : State, s.wf = true → step s = .next t → t.wf = true

/-- What the interrupted program can rely on across any step: the cartridge image never changes (R344,
R341), `cyc` grows by the step's count, which is at least 2 (R27, R470), and a RESET leaves work RAM,
cartridge RAM and the mapper as they were (R49; the spec's decisions D1, D5, D7, D32). -/
def Obligations.StepKeepsTheCartridgeAndAdvancesTime : Prop :=
  (∀ s t : State, step s = .next t → t.board.cart = s.board.cart ∧ t.cpu.cyc = s.cpu.cyc + t.cpu.cycles ∧
    2 ≤ t.cpu.cycles) ∧
  (∀ s t : State, s.ports.resetLine = true ∨ s.cpu.resetPending = true → step s = .next t →
    t.ram = s.ram ∧ t.board = s.board ∧ t.ctl = s.ctl ∧ t.cpu.cycles = 7 ∧ t.cpu.a = s.cpu.a ∧
    t.cpu.x = s.cpu.x ∧ t.cpu.y = s.cpu.y)
end

