-- ==== Sys2Proof/Laws/State.lean ====
section
/-! SUPPORT. One lemma a field for each update of the state and of the CPU, so that no later proof
unfolds a record update. -/

namespace Sys2Proof.Machine

@[simp] theorem State.mapCpu_cpu (f : Cpu → Cpu) (s : State) : (s.mapCpu f).cpu = f s.cpu := rfl
@[simp] theorem State.mapCpu_ram (f : Cpu → Cpu) (s : State) : (s.mapCpu f).ram = s.ram := rfl
@[simp] theorem State.mapCpu_ppu (f : Cpu → Cpu) (s : State) : (s.mapCpu f).ppu = s.ppu := rfl
@[simp] theorem State.mapCpu_board (f : Cpu → Cpu) (s : State) : (s.mapCpu f).board = s.board := rfl
@[simp] theorem State.mapCpu_ctl (f : Cpu → Cpu) (s : State) : (s.mapCpu f).ctl = s.ctl := rfl
@[simp] theorem State.mapCpu_ports (f : Cpu → Cpu) (s : State) : (s.mapCpu f).ports = s.ports := rfl

@[simp] theorem State.setPpu_cpu (p : Ppu) (s : State) : (s.setPpu p).cpu = s.cpu := rfl
@[simp] theorem State.setPpu_ram (p : Ppu) (s : State) : (s.setPpu p).ram = s.ram := rfl
@[simp] theorem State.setPpu_ppu (p : Ppu) (s : State) : (s.setPpu p).ppu = p := rfl
@[simp] theorem State.setPpu_board (p : Ppu) (s : State) : (s.setPpu p).board = s.board := rfl
@[simp] theorem State.setPpu_ctl (p : Ppu) (s : State) : (s.setPpu p).ctl = s.ctl := rfl
@[simp] theorem State.setPpu_ports (p : Ppu) (s : State) : (s.setPpu p).ports = s.ports := rfl

@[simp] theorem State.setCtl_cpu (c : Controllers) (s : State) : (s.setCtl c).cpu = s.cpu := rfl
@[simp] theorem State.setCtl_ram (c : Controllers) (s : State) : (s.setCtl c).ram = s.ram := rfl
@[simp] theorem State.setCtl_ppu (c : Controllers) (s : State) : (s.setCtl c).ppu = s.ppu := rfl
@[simp] theorem State.setCtl_board (c : Controllers) (s : State) : (s.setCtl c).board = s.board := rfl
@[simp] theorem State.setCtl_ctl (c : Controllers) (s : State) : (s.setCtl c).ctl = c := rfl
@[simp] theorem State.setCtl_ports (c : Controllers) (s : State) : (s.setCtl c).ports = s.ports := rfl

@[simp] theorem State.setBoard_cpu (b : Board) (s : State) : (s.setBoard b).cpu = s.cpu := rfl
@[simp] theorem State.setBoard_ram (b : Board) (s : State) : (s.setBoard b).ram = s.ram := rfl
@[simp] theorem State.setBoard_ppu (b : Board) (s : State) : (s.setBoard b).ppu = s.ppu := rfl
@[simp] theorem State.setBoard_board (b : Board) (s : State) : (s.setBoard b).board = b := rfl
@[simp] theorem State.setBoard_ctl (b : Board) (s : State) : (s.setBoard b).ctl = s.ctl := rfl
@[simp] theorem State.setBoard_ports (b : Board) (s : State) : (s.setBoard b).ports = s.ports := rfl

@[simp] theorem State.setRam_cpu (m : Memory 8) (s : State) : (s.setRam m).cpu = s.cpu := rfl
@[simp] theorem State.setRam_ram (m : Memory 8) (s : State) : (s.setRam m).ram = m := rfl
@[simp] theorem State.setRam_ppu (m : Memory 8) (s : State) : (s.setRam m).ppu = s.ppu := rfl
@[simp] theorem State.setRam_board (m : Memory 8) (s : State) : (s.setRam m).board = s.board := rfl
@[simp] theorem State.setRam_ctl (m : Memory 8) (s : State) : (s.setRam m).ctl = s.ctl := rfl
@[simp] theorem State.setRam_ports (m : Memory 8) (s : State) : (s.setRam m).ports = s.ports := rfl

@[simp] theorem Cpu.setA_a (v : Byte) (r : Cpu) : (r.setA v).a = v := rfl
@[simp] theorem Cpu.setA_x (v : Byte) (r : Cpu) : (r.setA v).x = r.x := rfl
@[simp] theorem Cpu.setA_y (v : Byte) (r : Cpu) : (r.setA v).y = r.y := rfl
@[simp] theorem Cpu.setA_s (v : Byte) (r : Cpu) : (r.setA v).s = r.s := rfl
@[simp] theorem Cpu.setA_pc (v : Byte) (r : Cpu) : (r.setA v).pc = r.pc := rfl
@[simp] theorem Cpu.setA_c (v : Byte) (r : Cpu) : (r.setA v).c = r.c := rfl
@[simp] theorem Cpu.setA_z (v : Byte) (r : Cpu) : (r.setA v).z = r.z := rfl
@[simp] theorem Cpu.setA_i (v : Byte) (r : Cpu) : (r.setA v).i = r.i := rfl
@[simp] theorem Cpu.setA_d (v : Byte) (r : Cpu) : (r.setA v).d = r.d := rfl
@[simp] theorem Cpu.setA_v (v : Byte) (r : Cpu) : (r.setA v).v = r.v := rfl
@[simp] theorem Cpu.setA_n (v : Byte) (r : Cpu) : (r.setA v).n = r.n := rfl
@[simp] theorem Cpu.setA_nmiPrev (v : Byte) (r : Cpu) : (r.setA v).nmiPrev = r.nmiPrev := rfl
@[simp] theorem Cpu.setA_nmiPending (v : Byte) (r : Cpu) : (r.setA v).nmiPending = r.nmiPending := rfl
@[simp] theorem Cpu.setA_resetPending (v : Byte) (r : Cpu) : (r.setA v).resetPending = r.resetPending := rfl
@[simp] theorem Cpu.setA_halted (v : Byte) (r : Cpu) : (r.setA v).halted = r.halted := rfl
@[simp] theorem Cpu.setA_cyc (v : Byte) (r : Cpu) : (r.setA v).cyc = r.cyc := rfl
@[simp] theorem Cpu.setA_cycles (v : Byte) (r : Cpu) : (r.setA v).cycles = r.cycles := rfl

@[simp] theorem Cpu.setX_a (v : Byte) (r : Cpu) : (r.setX v).a = r.a := rfl
@[simp] theorem Cpu.setX_x (v : Byte) (r : Cpu) : (r.setX v).x = v := rfl
@[simp] theorem Cpu.setX_y (v : Byte) (r : Cpu) : (r.setX v).y = r.y := rfl
@[simp] theorem Cpu.setX_s (v : Byte) (r : Cpu) : (r.setX v).s = r.s := rfl
@[simp] theorem Cpu.setX_pc (v : Byte) (r : Cpu) : (r.setX v).pc = r.pc := rfl
@[simp] theorem Cpu.setX_c (v : Byte) (r : Cpu) : (r.setX v).c = r.c := rfl
@[simp] theorem Cpu.setX_z (v : Byte) (r : Cpu) : (r.setX v).z = r.z := rfl
@[simp] theorem Cpu.setX_i (v : Byte) (r : Cpu) : (r.setX v).i = r.i := rfl
@[simp] theorem Cpu.setX_d (v : Byte) (r : Cpu) : (r.setX v).d = r.d := rfl
@[simp] theorem Cpu.setX_v (v : Byte) (r : Cpu) : (r.setX v).v = r.v := rfl
@[simp] theorem Cpu.setX_n (v : Byte) (r : Cpu) : (r.setX v).n = r.n := rfl
@[simp] theorem Cpu.setX_nmiPrev (v : Byte) (r : Cpu) : (r.setX v).nmiPrev = r.nmiPrev := rfl
@[simp] theorem Cpu.setX_nmiPending (v : Byte) (r : Cpu) : (r.setX v).nmiPending = r.nmiPending := rfl
@[simp] theorem Cpu.setX_resetPending (v : Byte) (r : Cpu) : (r.setX v).resetPending = r.resetPending := rfl
@[simp] theorem Cpu.setX_halted (v : Byte) (r : Cpu) : (r.setX v).halted = r.halted := rfl
@[simp] theorem Cpu.setX_cyc (v : Byte) (r : Cpu) : (r.setX v).cyc = r.cyc := rfl
@[simp] theorem Cpu.setX_cycles (v : Byte) (r : Cpu) : (r.setX v).cycles = r.cycles := rfl

@[simp] theorem Cpu.setY_a (v : Byte) (r : Cpu) : (r.setY v).a = r.a := rfl
@[simp] theorem Cpu.setY_x (v : Byte) (r : Cpu) : (r.setY v).x = r.x := rfl
@[simp] theorem Cpu.setY_y (v : Byte) (r : Cpu) : (r.setY v).y = v := rfl
@[simp] theorem Cpu.setY_s (v : Byte) (r : Cpu) : (r.setY v).s = r.s := rfl
@[simp] theorem Cpu.setY_pc (v : Byte) (r : Cpu) : (r.setY v).pc = r.pc := rfl
@[simp] theorem Cpu.setY_c (v : Byte) (r : Cpu) : (r.setY v).c = r.c := rfl
@[simp] theorem Cpu.setY_z (v : Byte) (r : Cpu) : (r.setY v).z = r.z := rfl
@[simp] theorem Cpu.setY_i (v : Byte) (r : Cpu) : (r.setY v).i = r.i := rfl
@[simp] theorem Cpu.setY_d (v : Byte) (r : Cpu) : (r.setY v).d = r.d := rfl
@[simp] theorem Cpu.setY_v (v : Byte) (r : Cpu) : (r.setY v).v = r.v := rfl
@[simp] theorem Cpu.setY_n (v : Byte) (r : Cpu) : (r.setY v).n = r.n := rfl
@[simp] theorem Cpu.setY_nmiPrev (v : Byte) (r : Cpu) : (r.setY v).nmiPrev = r.nmiPrev := rfl
@[simp] theorem Cpu.setY_nmiPending (v : Byte) (r : Cpu) : (r.setY v).nmiPending = r.nmiPending := rfl
@[simp] theorem Cpu.setY_resetPending (v : Byte) (r : Cpu) : (r.setY v).resetPending = r.resetPending := rfl
@[simp] theorem Cpu.setY_halted (v : Byte) (r : Cpu) : (r.setY v).halted = r.halted := rfl
@[simp] theorem Cpu.setY_cyc (v : Byte) (r : Cpu) : (r.setY v).cyc = r.cyc := rfl
@[simp] theorem Cpu.setY_cycles (v : Byte) (r : Cpu) : (r.setY v).cycles = r.cycles := rfl

@[simp] theorem Cpu.setS_a (v : Byte) (r : Cpu) : (r.setS v).a = r.a := rfl
@[simp] theorem Cpu.setS_x (v : Byte) (r : Cpu) : (r.setS v).x = r.x := rfl
@[simp] theorem Cpu.setS_y (v : Byte) (r : Cpu) : (r.setS v).y = r.y := rfl
@[simp] theorem Cpu.setS_s (v : Byte) (r : Cpu) : (r.setS v).s = v := rfl
@[simp] theorem Cpu.setS_pc (v : Byte) (r : Cpu) : (r.setS v).pc = r.pc := rfl
@[simp] theorem Cpu.setS_c (v : Byte) (r : Cpu) : (r.setS v).c = r.c := rfl
@[simp] theorem Cpu.setS_z (v : Byte) (r : Cpu) : (r.setS v).z = r.z := rfl
@[simp] theorem Cpu.setS_i (v : Byte) (r : Cpu) : (r.setS v).i = r.i := rfl
@[simp] theorem Cpu.setS_d (v : Byte) (r : Cpu) : (r.setS v).d = r.d := rfl
@[simp] theorem Cpu.setS_v (v : Byte) (r : Cpu) : (r.setS v).v = r.v := rfl
@[simp] theorem Cpu.setS_n (v : Byte) (r : Cpu) : (r.setS v).n = r.n := rfl
@[simp] theorem Cpu.setS_nmiPrev (v : Byte) (r : Cpu) : (r.setS v).nmiPrev = r.nmiPrev := rfl
@[simp] theorem Cpu.setS_nmiPending (v : Byte) (r : Cpu) : (r.setS v).nmiPending = r.nmiPending := rfl
@[simp] theorem Cpu.setS_resetPending (v : Byte) (r : Cpu) : (r.setS v).resetPending = r.resetPending := rfl
@[simp] theorem Cpu.setS_halted (v : Byte) (r : Cpu) : (r.setS v).halted = r.halted := rfl
@[simp] theorem Cpu.setS_cyc (v : Byte) (r : Cpu) : (r.setS v).cyc = r.cyc := rfl
@[simp] theorem Cpu.setS_cycles (v : Byte) (r : Cpu) : (r.setS v).cycles = r.cycles := rfl

@[simp] theorem Cpu.setPc_a (v : Addr) (r : Cpu) : (r.setPc v).a = r.a := rfl
@[simp] theorem Cpu.setPc_x (v : Addr) (r : Cpu) : (r.setPc v).x = r.x := rfl
@[simp] theorem Cpu.setPc_y (v : Addr) (r : Cpu) : (r.setPc v).y = r.y := rfl
@[simp] theorem Cpu.setPc_s (v : Addr) (r : Cpu) : (r.setPc v).s = r.s := rfl
@[simp] theorem Cpu.setPc_pc (v : Addr) (r : Cpu) : (r.setPc v).pc = v := rfl
@[simp] theorem Cpu.setPc_c (v : Addr) (r : Cpu) : (r.setPc v).c = r.c := rfl
@[simp] theorem Cpu.setPc_z (v : Addr) (r : Cpu) : (r.setPc v).z = r.z := rfl
@[simp] theorem Cpu.setPc_i (v : Addr) (r : Cpu) : (r.setPc v).i = r.i := rfl
@[simp] theorem Cpu.setPc_d (v : Addr) (r : Cpu) : (r.setPc v).d = r.d := rfl
@[simp] theorem Cpu.setPc_v (v : Addr) (r : Cpu) : (r.setPc v).v = r.v := rfl
@[simp] theorem Cpu.setPc_n (v : Addr) (r : Cpu) : (r.setPc v).n = r.n := rfl
@[simp] theorem Cpu.setPc_nmiPrev (v : Addr) (r : Cpu) : (r.setPc v).nmiPrev = r.nmiPrev := rfl
@[simp] theorem Cpu.setPc_nmiPending (v : Addr) (r : Cpu) : (r.setPc v).nmiPending = r.nmiPending := rfl
@[simp] theorem Cpu.setPc_resetPending (v : Addr) (r : Cpu) : (r.setPc v).resetPending = r.resetPending := rfl
@[simp] theorem Cpu.setPc_halted (v : Addr) (r : Cpu) : (r.setPc v).halted = r.halted := rfl
@[simp] theorem Cpu.setPc_cyc (v : Addr) (r : Cpu) : (r.setPc v).cyc = r.cyc := rfl
@[simp] theorem Cpu.setPc_cycles (v : Addr) (r : Cpu) : (r.setPc v).cycles = r.cycles := rfl

@[simp] theorem Cpu.setC_a (b : Bool) (r : Cpu) : (r.setC b).a = r.a := rfl
@[simp] theorem Cpu.setC_x (b : Bool) (r : Cpu) : (r.setC b).x = r.x := rfl
@[simp] theorem Cpu.setC_y (b : Bool) (r : Cpu) : (r.setC b).y = r.y := rfl
@[simp] theorem Cpu.setC_s (b : Bool) (r : Cpu) : (r.setC b).s = r.s := rfl
@[simp] theorem Cpu.setC_pc (b : Bool) (r : Cpu) : (r.setC b).pc = r.pc := rfl
@[simp] theorem Cpu.setC_c (b : Bool) (r : Cpu) : (r.setC b).c = b := rfl
@[simp] theorem Cpu.setC_z (b : Bool) (r : Cpu) : (r.setC b).z = r.z := rfl
@[simp] theorem Cpu.setC_i (b : Bool) (r : Cpu) : (r.setC b).i = r.i := rfl
@[simp] theorem Cpu.setC_d (b : Bool) (r : Cpu) : (r.setC b).d = r.d := rfl
@[simp] theorem Cpu.setC_v (b : Bool) (r : Cpu) : (r.setC b).v = r.v := rfl
@[simp] theorem Cpu.setC_n (b : Bool) (r : Cpu) : (r.setC b).n = r.n := rfl
@[simp] theorem Cpu.setC_nmiPrev (b : Bool) (r : Cpu) : (r.setC b).nmiPrev = r.nmiPrev := rfl
@[simp] theorem Cpu.setC_nmiPending (b : Bool) (r : Cpu) : (r.setC b).nmiPending = r.nmiPending := rfl
@[simp] theorem Cpu.setC_resetPending (b : Bool) (r : Cpu) : (r.setC b).resetPending = r.resetPending := rfl
@[simp] theorem Cpu.setC_halted (b : Bool) (r : Cpu) : (r.setC b).halted = r.halted := rfl
@[simp] theorem Cpu.setC_cyc (b : Bool) (r : Cpu) : (r.setC b).cyc = r.cyc := rfl
@[simp] theorem Cpu.setC_cycles (b : Bool) (r : Cpu) : (r.setC b).cycles = r.cycles := rfl

@[simp] theorem Cpu.setZ_a (b : Bool) (r : Cpu) : (r.setZ b).a = r.a := rfl
@[simp] theorem Cpu.setZ_x (b : Bool) (r : Cpu) : (r.setZ b).x = r.x := rfl
@[simp] theorem Cpu.setZ_y (b : Bool) (r : Cpu) : (r.setZ b).y = r.y := rfl
@[simp] theorem Cpu.setZ_s (b : Bool) (r : Cpu) : (r.setZ b).s = r.s := rfl
@[simp] theorem Cpu.setZ_pc (b : Bool) (r : Cpu) : (r.setZ b).pc = r.pc := rfl
@[simp] theorem Cpu.setZ_c (b : Bool) (r : Cpu) : (r.setZ b).c = r.c := rfl
@[simp] theorem Cpu.setZ_z (b : Bool) (r : Cpu) : (r.setZ b).z = b := rfl
@[simp] theorem Cpu.setZ_i (b : Bool) (r : Cpu) : (r.setZ b).i = r.i := rfl
@[simp] theorem Cpu.setZ_d (b : Bool) (r : Cpu) : (r.setZ b).d = r.d := rfl
@[simp] theorem Cpu.setZ_v (b : Bool) (r : Cpu) : (r.setZ b).v = r.v := rfl
@[simp] theorem Cpu.setZ_n (b : Bool) (r : Cpu) : (r.setZ b).n = r.n := rfl
@[simp] theorem Cpu.setZ_nmiPrev (b : Bool) (r : Cpu) : (r.setZ b).nmiPrev = r.nmiPrev := rfl
@[simp] theorem Cpu.setZ_nmiPending (b : Bool) (r : Cpu) : (r.setZ b).nmiPending = r.nmiPending := rfl
@[simp] theorem Cpu.setZ_resetPending (b : Bool) (r : Cpu) : (r.setZ b).resetPending = r.resetPending := rfl
@[simp] theorem Cpu.setZ_halted (b : Bool) (r : Cpu) : (r.setZ b).halted = r.halted := rfl
@[simp] theorem Cpu.setZ_cyc (b : Bool) (r : Cpu) : (r.setZ b).cyc = r.cyc := rfl
@[simp] theorem Cpu.setZ_cycles (b : Bool) (r : Cpu) : (r.setZ b).cycles = r.cycles := rfl

@[simp] theorem Cpu.setI_a (b : Bool) (r : Cpu) : (r.setI b).a = r.a := rfl
@[simp] theorem Cpu.setI_x (b : Bool) (r : Cpu) : (r.setI b).x = r.x := rfl
@[simp] theorem Cpu.setI_y (b : Bool) (r : Cpu) : (r.setI b).y = r.y := rfl
@[simp] theorem Cpu.setI_s (b : Bool) (r : Cpu) : (r.setI b).s = r.s := rfl
@[simp] theorem Cpu.setI_pc (b : Bool) (r : Cpu) : (r.setI b).pc = r.pc := rfl
@[simp] theorem Cpu.setI_c (b : Bool) (r : Cpu) : (r.setI b).c = r.c := rfl
@[simp] theorem Cpu.setI_z (b : Bool) (r : Cpu) : (r.setI b).z = r.z := rfl
@[simp] theorem Cpu.setI_i (b : Bool) (r : Cpu) : (r.setI b).i = b := rfl
@[simp] theorem Cpu.setI_d (b : Bool) (r : Cpu) : (r.setI b).d = r.d := rfl
@[simp] theorem Cpu.setI_v (b : Bool) (r : Cpu) : (r.setI b).v = r.v := rfl
@[simp] theorem Cpu.setI_n (b : Bool) (r : Cpu) : (r.setI b).n = r.n := rfl
@[simp] theorem Cpu.setI_nmiPrev (b : Bool) (r : Cpu) : (r.setI b).nmiPrev = r.nmiPrev := rfl
@[simp] theorem Cpu.setI_nmiPending (b : Bool) (r : Cpu) : (r.setI b).nmiPending = r.nmiPending := rfl
@[simp] theorem Cpu.setI_resetPending (b : Bool) (r : Cpu) : (r.setI b).resetPending = r.resetPending := rfl
@[simp] theorem Cpu.setI_halted (b : Bool) (r : Cpu) : (r.setI b).halted = r.halted := rfl
@[simp] theorem Cpu.setI_cyc (b : Bool) (r : Cpu) : (r.setI b).cyc = r.cyc := rfl
@[simp] theorem Cpu.setI_cycles (b : Bool) (r : Cpu) : (r.setI b).cycles = r.cycles := rfl

@[simp] theorem Cpu.setD_a (b : Bool) (r : Cpu) : (r.setD b).a = r.a := rfl
@[simp] theorem Cpu.setD_x (b : Bool) (r : Cpu) : (r.setD b).x = r.x := rfl
@[simp] theorem Cpu.setD_y (b : Bool) (r : Cpu) : (r.setD b).y = r.y := rfl
@[simp] theorem Cpu.setD_s (b : Bool) (r : Cpu) : (r.setD b).s = r.s := rfl
@[simp] theorem Cpu.setD_pc (b : Bool) (r : Cpu) : (r.setD b).pc = r.pc := rfl
@[simp] theorem Cpu.setD_c (b : Bool) (r : Cpu) : (r.setD b).c = r.c := rfl
@[simp] theorem Cpu.setD_z (b : Bool) (r : Cpu) : (r.setD b).z = r.z := rfl
@[simp] theorem Cpu.setD_i (b : Bool) (r : Cpu) : (r.setD b).i = r.i := rfl
@[simp] theorem Cpu.setD_d (b : Bool) (r : Cpu) : (r.setD b).d = b := rfl
@[simp] theorem Cpu.setD_v (b : Bool) (r : Cpu) : (r.setD b).v = r.v := rfl
@[simp] theorem Cpu.setD_n (b : Bool) (r : Cpu) : (r.setD b).n = r.n := rfl
@[simp] theorem Cpu.setD_nmiPrev (b : Bool) (r : Cpu) : (r.setD b).nmiPrev = r.nmiPrev := rfl
@[simp] theorem Cpu.setD_nmiPending (b : Bool) (r : Cpu) : (r.setD b).nmiPending = r.nmiPending := rfl
@[simp] theorem Cpu.setD_resetPending (b : Bool) (r : Cpu) : (r.setD b).resetPending = r.resetPending := rfl
@[simp] theorem Cpu.setD_halted (b : Bool) (r : Cpu) : (r.setD b).halted = r.halted := rfl
@[simp] theorem Cpu.setD_cyc (b : Bool) (r : Cpu) : (r.setD b).cyc = r.cyc := rfl
@[simp] theorem Cpu.setD_cycles (b : Bool) (r : Cpu) : (r.setD b).cycles = r.cycles := rfl

@[simp] theorem Cpu.setV_a (b : Bool) (r : Cpu) : (r.setV b).a = r.a := rfl
@[simp] theorem Cpu.setV_x (b : Bool) (r : Cpu) : (r.setV b).x = r.x := rfl
@[simp] theorem Cpu.setV_y (b : Bool) (r : Cpu) : (r.setV b).y = r.y := rfl
@[simp] theorem Cpu.setV_s (b : Bool) (r : Cpu) : (r.setV b).s = r.s := rfl
@[simp] theorem Cpu.setV_pc (b : Bool) (r : Cpu) : (r.setV b).pc = r.pc := rfl
@[simp] theorem Cpu.setV_c (b : Bool) (r : Cpu) : (r.setV b).c = r.c := rfl
@[simp] theorem Cpu.setV_z (b : Bool) (r : Cpu) : (r.setV b).z = r.z := rfl
@[simp] theorem Cpu.setV_i (b : Bool) (r : Cpu) : (r.setV b).i = r.i := rfl
@[simp] theorem Cpu.setV_d (b : Bool) (r : Cpu) : (r.setV b).d = r.d := rfl
@[simp] theorem Cpu.setV_v (b : Bool) (r : Cpu) : (r.setV b).v = b := rfl
@[simp] theorem Cpu.setV_n (b : Bool) (r : Cpu) : (r.setV b).n = r.n := rfl
@[simp] theorem Cpu.setV_nmiPrev (b : Bool) (r : Cpu) : (r.setV b).nmiPrev = r.nmiPrev := rfl
@[simp] theorem Cpu.setV_nmiPending (b : Bool) (r : Cpu) : (r.setV b).nmiPending = r.nmiPending := rfl
@[simp] theorem Cpu.setV_resetPending (b : Bool) (r : Cpu) : (r.setV b).resetPending = r.resetPending := rfl
@[simp] theorem Cpu.setV_halted (b : Bool) (r : Cpu) : (r.setV b).halted = r.halted := rfl
@[simp] theorem Cpu.setV_cyc (b : Bool) (r : Cpu) : (r.setV b).cyc = r.cyc := rfl
@[simp] theorem Cpu.setV_cycles (b : Bool) (r : Cpu) : (r.setV b).cycles = r.cycles := rfl

@[simp] theorem Cpu.setN_a (b : Bool) (r : Cpu) : (r.setN b).a = r.a := rfl
@[simp] theorem Cpu.setN_x (b : Bool) (r : Cpu) : (r.setN b).x = r.x := rfl
@[simp] theorem Cpu.setN_y (b : Bool) (r : Cpu) : (r.setN b).y = r.y := rfl
@[simp] theorem Cpu.setN_s (b : Bool) (r : Cpu) : (r.setN b).s = r.s := rfl
@[simp] theorem Cpu.setN_pc (b : Bool) (r : Cpu) : (r.setN b).pc = r.pc := rfl
@[simp] theorem Cpu.setN_c (b : Bool) (r : Cpu) : (r.setN b).c = r.c := rfl
@[simp] theorem Cpu.setN_z (b : Bool) (r : Cpu) : (r.setN b).z = r.z := rfl
@[simp] theorem Cpu.setN_i (b : Bool) (r : Cpu) : (r.setN b).i = r.i := rfl
@[simp] theorem Cpu.setN_d (b : Bool) (r : Cpu) : (r.setN b).d = r.d := rfl
@[simp] theorem Cpu.setN_v (b : Bool) (r : Cpu) : (r.setN b).v = r.v := rfl
@[simp] theorem Cpu.setN_n (b : Bool) (r : Cpu) : (r.setN b).n = b := rfl
@[simp] theorem Cpu.setN_nmiPrev (b : Bool) (r : Cpu) : (r.setN b).nmiPrev = r.nmiPrev := rfl
@[simp] theorem Cpu.setN_nmiPending (b : Bool) (r : Cpu) : (r.setN b).nmiPending = r.nmiPending := rfl
@[simp] theorem Cpu.setN_resetPending (b : Bool) (r : Cpu) : (r.setN b).resetPending = r.resetPending := rfl
@[simp] theorem Cpu.setN_halted (b : Bool) (r : Cpu) : (r.setN b).halted = r.halted := rfl
@[simp] theorem Cpu.setN_cyc (b : Bool) (r : Cpu) : (r.setN b).cyc = r.cyc := rfl
@[simp] theorem Cpu.setN_cycles (b : Bool) (r : Cpu) : (r.setN b).cycles = r.cycles := rfl

@[simp] theorem Cpu.setCycles_a (k : Nat) (r : Cpu) : (r.setCycles k).a = r.a := rfl
@[simp] theorem Cpu.setCycles_x (k : Nat) (r : Cpu) : (r.setCycles k).x = r.x := rfl
@[simp] theorem Cpu.setCycles_y (k : Nat) (r : Cpu) : (r.setCycles k).y = r.y := rfl
@[simp] theorem Cpu.setCycles_s (k : Nat) (r : Cpu) : (r.setCycles k).s = r.s := rfl
@[simp] theorem Cpu.setCycles_pc (k : Nat) (r : Cpu) : (r.setCycles k).pc = r.pc := rfl
@[simp] theorem Cpu.setCycles_c (k : Nat) (r : Cpu) : (r.setCycles k).c = r.c := rfl
@[simp] theorem Cpu.setCycles_z (k : Nat) (r : Cpu) : (r.setCycles k).z = r.z := rfl
@[simp] theorem Cpu.setCycles_i (k : Nat) (r : Cpu) : (r.setCycles k).i = r.i := rfl
@[simp] theorem Cpu.setCycles_d (k : Nat) (r : Cpu) : (r.setCycles k).d = r.d := rfl
@[simp] theorem Cpu.setCycles_v (k : Nat) (r : Cpu) : (r.setCycles k).v = r.v := rfl
@[simp] theorem Cpu.setCycles_n (k : Nat) (r : Cpu) : (r.setCycles k).n = r.n := rfl
@[simp] theorem Cpu.setCycles_nmiPrev (k : Nat) (r : Cpu) : (r.setCycles k).nmiPrev = r.nmiPrev := rfl
@[simp] theorem Cpu.setCycles_nmiPending (k : Nat) (r : Cpu) : (r.setCycles k).nmiPending = r.nmiPending := rfl
@[simp] theorem Cpu.setCycles_resetPending (k : Nat) (r : Cpu) : (r.setCycles k).resetPending = r.resetPending := rfl
@[simp] theorem Cpu.setCycles_halted (k : Nat) (r : Cpu) : (r.setCycles k).halted = r.halted := rfl
@[simp] theorem Cpu.setCycles_cyc (k : Nat) (r : Cpu) : (r.setCycles k).cyc = r.cyc := rfl
@[simp] theorem Cpu.setCycles_cycles (k : Nat) (r : Cpu) : (r.setCycles k).cycles = k := rfl

@[simp] theorem Cpu.addCycles_a (k : Nat) (r : Cpu) : (r.addCycles k).a = r.a := rfl
@[simp] theorem Cpu.addCycles_x (k : Nat) (r : Cpu) : (r.addCycles k).x = r.x := rfl
@[simp] theorem Cpu.addCycles_y (k : Nat) (r : Cpu) : (r.addCycles k).y = r.y := rfl
@[simp] theorem Cpu.addCycles_s (k : Nat) (r : Cpu) : (r.addCycles k).s = r.s := rfl
@[simp] theorem Cpu.addCycles_pc (k : Nat) (r : Cpu) : (r.addCycles k).pc = r.pc := rfl
@[simp] theorem Cpu.addCycles_c (k : Nat) (r : Cpu) : (r.addCycles k).c = r.c := rfl
@[simp] theorem Cpu.addCycles_z (k : Nat) (r : Cpu) : (r.addCycles k).z = r.z := rfl
@[simp] theorem Cpu.addCycles_i (k : Nat) (r : Cpu) : (r.addCycles k).i = r.i := rfl
@[simp] theorem Cpu.addCycles_d (k : Nat) (r : Cpu) : (r.addCycles k).d = r.d := rfl
@[simp] theorem Cpu.addCycles_v (k : Nat) (r : Cpu) : (r.addCycles k).v = r.v := rfl
@[simp] theorem Cpu.addCycles_n (k : Nat) (r : Cpu) : (r.addCycles k).n = r.n := rfl
@[simp] theorem Cpu.addCycles_nmiPrev (k : Nat) (r : Cpu) : (r.addCycles k).nmiPrev = r.nmiPrev := rfl
@[simp] theorem Cpu.addCycles_nmiPending (k : Nat) (r : Cpu) : (r.addCycles k).nmiPending = r.nmiPending := rfl
@[simp] theorem Cpu.addCycles_resetPending (k : Nat) (r : Cpu) : (r.addCycles k).resetPending = r.resetPending := rfl
@[simp] theorem Cpu.addCycles_halted (k : Nat) (r : Cpu) : (r.addCycles k).halted = r.halted := rfl
@[simp] theorem Cpu.addCycles_cyc (k : Nat) (r : Cpu) : (r.addCycles k).cyc = r.cyc := rfl
@[simp] theorem Cpu.addCycles_cycles (k : Nat) (r : Cpu) : (r.addCycles k).cycles = r.cycles + k := rfl

@[simp] theorem Cpu.setResetPending_a (b : Bool) (r : Cpu) : (r.setResetPending b).a = r.a := rfl
@[simp] theorem Cpu.setResetPending_x (b : Bool) (r : Cpu) : (r.setResetPending b).x = r.x := rfl
@[simp] theorem Cpu.setResetPending_y (b : Bool) (r : Cpu) : (r.setResetPending b).y = r.y := rfl
@[simp] theorem Cpu.setResetPending_s (b : Bool) (r : Cpu) : (r.setResetPending b).s = r.s := rfl
@[simp] theorem Cpu.setResetPending_pc (b : Bool) (r : Cpu) : (r.setResetPending b).pc = r.pc := rfl
@[simp] theorem Cpu.setResetPending_c (b : Bool) (r : Cpu) : (r.setResetPending b).c = r.c := rfl
@[simp] theorem Cpu.setResetPending_z (b : Bool) (r : Cpu) : (r.setResetPending b).z = r.z := rfl
@[simp] theorem Cpu.setResetPending_i (b : Bool) (r : Cpu) : (r.setResetPending b).i = r.i := rfl
@[simp] theorem Cpu.setResetPending_d (b : Bool) (r : Cpu) : (r.setResetPending b).d = r.d := rfl
@[simp] theorem Cpu.setResetPending_v (b : Bool) (r : Cpu) : (r.setResetPending b).v = r.v := rfl
@[simp] theorem Cpu.setResetPending_n (b : Bool) (r : Cpu) : (r.setResetPending b).n = r.n := rfl
@[simp] theorem Cpu.setResetPending_nmiPrev (b : Bool) (r : Cpu) : (r.setResetPending b).nmiPrev = r.nmiPrev := rfl
@[simp] theorem Cpu.setResetPending_nmiPending (b : Bool) (r : Cpu) : (r.setResetPending b).nmiPending = r.nmiPending := rfl
@[simp] theorem Cpu.setResetPending_resetPending (b : Bool) (r : Cpu) : (r.setResetPending b).resetPending = b := rfl
@[simp] theorem Cpu.setResetPending_halted (b : Bool) (r : Cpu) : (r.setResetPending b).halted = r.halted := rfl
@[simp] theorem Cpu.setResetPending_cyc (b : Bool) (r : Cpu) : (r.setResetPending b).cyc = r.cyc := rfl
@[simp] theorem Cpu.setResetPending_cycles (b : Bool) (r : Cpu) : (r.setResetPending b).cycles = r.cycles := rfl

@[simp] theorem Cpu.setHalted_a (b : Bool) (r : Cpu) : (r.setHalted b).a = r.a := rfl
@[simp] theorem Cpu.setHalted_x (b : Bool) (r : Cpu) : (r.setHalted b).x = r.x := rfl
@[simp] theorem Cpu.setHalted_y (b : Bool) (r : Cpu) : (r.setHalted b).y = r.y := rfl
@[simp] theorem Cpu.setHalted_s (b : Bool) (r : Cpu) : (r.setHalted b).s = r.s := rfl
@[simp] theorem Cpu.setHalted_pc (b : Bool) (r : Cpu) : (r.setHalted b).pc = r.pc := rfl
@[simp] theorem Cpu.setHalted_c (b : Bool) (r : Cpu) : (r.setHalted b).c = r.c := rfl
@[simp] theorem Cpu.setHalted_z (b : Bool) (r : Cpu) : (r.setHalted b).z = r.z := rfl
@[simp] theorem Cpu.setHalted_i (b : Bool) (r : Cpu) : (r.setHalted b).i = r.i := rfl
@[simp] theorem Cpu.setHalted_d (b : Bool) (r : Cpu) : (r.setHalted b).d = r.d := rfl
@[simp] theorem Cpu.setHalted_v (b : Bool) (r : Cpu) : (r.setHalted b).v = r.v := rfl
@[simp] theorem Cpu.setHalted_n (b : Bool) (r : Cpu) : (r.setHalted b).n = r.n := rfl
@[simp] theorem Cpu.setHalted_nmiPrev (b : Bool) (r : Cpu) : (r.setHalted b).nmiPrev = r.nmiPrev := rfl
@[simp] theorem Cpu.setHalted_nmiPending (b : Bool) (r : Cpu) : (r.setHalted b).nmiPending = r.nmiPending := rfl
@[simp] theorem Cpu.setHalted_resetPending (b : Bool) (r : Cpu) : (r.setHalted b).resetPending = r.resetPending := rfl
@[simp] theorem Cpu.setHalted_halted (b : Bool) (r : Cpu) : (r.setHalted b).halted = b := rfl
@[simp] theorem Cpu.setHalted_cyc (b : Bool) (r : Cpu) : (r.setHalted b).cyc = r.cyc := rfl
@[simp] theorem Cpu.setHalted_cycles (b : Bool) (r : Cpu) : (r.setHalted b).cycles = r.cycles := rfl

@[simp] theorem Cpu.setNmi_a (p q : Bool) (r : Cpu) : (r.setNmi p q).a = r.a := rfl
@[simp] theorem Cpu.setNmi_x (p q : Bool) (r : Cpu) : (r.setNmi p q).x = r.x := rfl
@[simp] theorem Cpu.setNmi_y (p q : Bool) (r : Cpu) : (r.setNmi p q).y = r.y := rfl
@[simp] theorem Cpu.setNmi_s (p q : Bool) (r : Cpu) : (r.setNmi p q).s = r.s := rfl
@[simp] theorem Cpu.setNmi_pc (p q : Bool) (r : Cpu) : (r.setNmi p q).pc = r.pc := rfl
@[simp] theorem Cpu.setNmi_c (p q : Bool) (r : Cpu) : (r.setNmi p q).c = r.c := rfl
@[simp] theorem Cpu.setNmi_z (p q : Bool) (r : Cpu) : (r.setNmi p q).z = r.z := rfl
@[simp] theorem Cpu.setNmi_i (p q : Bool) (r : Cpu) : (r.setNmi p q).i = r.i := rfl
@[simp] theorem Cpu.setNmi_d (p q : Bool) (r : Cpu) : (r.setNmi p q).d = r.d := rfl
@[simp] theorem Cpu.setNmi_v (p q : Bool) (r : Cpu) : (r.setNmi p q).v = r.v := rfl
@[simp] theorem Cpu.setNmi_n (p q : Bool) (r : Cpu) : (r.setNmi p q).n = r.n := rfl
@[simp] theorem Cpu.setNmi_nmiPrev (p q : Bool) (r : Cpu) : (r.setNmi p q).nmiPrev = p := rfl
@[simp] theorem Cpu.setNmi_nmiPending (p q : Bool) (r : Cpu) : (r.setNmi p q).nmiPending = q := rfl
@[simp] theorem Cpu.setNmi_resetPending (p q : Bool) (r : Cpu) : (r.setNmi p q).resetPending = r.resetPending := rfl
@[simp] theorem Cpu.setNmi_halted (p q : Bool) (r : Cpu) : (r.setNmi p q).halted = r.halted := rfl
@[simp] theorem Cpu.setNmi_cyc (p q : Bool) (r : Cpu) : (r.setNmi p q).cyc = r.cyc := rfl
@[simp] theorem Cpu.setNmi_cycles (p q : Bool) (r : Cpu) : (r.setNmi p q).cycles = r.cycles := rfl

@[simp] theorem Cpu.bank_a (r : Cpu) : r.bank.a = r.a := rfl
@[simp] theorem Cpu.bank_x (r : Cpu) : r.bank.x = r.x := rfl
@[simp] theorem Cpu.bank_y (r : Cpu) : r.bank.y = r.y := rfl
@[simp] theorem Cpu.bank_s (r : Cpu) : r.bank.s = r.s := rfl
@[simp] theorem Cpu.bank_pc (r : Cpu) : r.bank.pc = r.pc := rfl
@[simp] theorem Cpu.bank_c (r : Cpu) : r.bank.c = r.c := rfl
@[simp] theorem Cpu.bank_z (r : Cpu) : r.bank.z = r.z := rfl
@[simp] theorem Cpu.bank_i (r : Cpu) : r.bank.i = r.i := rfl
@[simp] theorem Cpu.bank_d (r : Cpu) : r.bank.d = r.d := rfl
@[simp] theorem Cpu.bank_v (r : Cpu) : r.bank.v = r.v := rfl
@[simp] theorem Cpu.bank_n (r : Cpu) : r.bank.n = r.n := rfl
@[simp] theorem Cpu.bank_nmiPrev (r : Cpu) : r.bank.nmiPrev = r.nmiPrev := rfl
@[simp] theorem Cpu.bank_nmiPending (r : Cpu) : r.bank.nmiPending = r.nmiPending := rfl
@[simp] theorem Cpu.bank_resetPending (r : Cpu) : r.bank.resetPending = r.resetPending := rfl
@[simp] theorem Cpu.bank_halted (r : Cpu) : r.bank.halted = r.halted := rfl
@[simp] theorem Cpu.bank_cyc (r : Cpu) : r.bank.cyc = r.cyc + r.cycles := rfl
@[simp] theorem Cpu.bank_cycles (r : Cpu) : r.bank.cycles = r.cycles := rfl

/-- Two states with the same six parts are the same. -/
theorem State.ext_parts {s t : State} (h1 : s.cpu = t.cpu) (h2 : s.ram = t.ram) (h3 : s.ppu = t.ppu)
    (h4 : s.board = t.board) (h5 : s.ctl = t.ctl) (h6 : s.ports = t.ports) : s = t := by
  cases s; cases t; simp_all

/-- Two updates of the CPU in a row are one. -/
@[simp] theorem State.mapCpu_mapCpu (f g : Cpu → Cpu) (s : State) :
    (s.mapCpu f).mapCpu g = s.mapCpu (fun c => g (f c)) := rfl

end Sys2Proof.Machine
end

