-- ==== Sys2Proof/Laws/Flags.lean ====
section
/-! SUPPORT. What each flag computation leaves: one lemma a field, and the byte `P` pushed and pulled. -/

namespace Sys2Proof.Machine

/-! ### `SetNZ` (R9) -/

@[simp] theorem Cpu.setNZ_a (k : Byte) (r : Cpu) : (r.setNZ k).a = r.a := rfl
@[simp] theorem Cpu.setNZ_x (k : Byte) (r : Cpu) : (r.setNZ k).x = r.x := rfl
@[simp] theorem Cpu.setNZ_y (k : Byte) (r : Cpu) : (r.setNZ k).y = r.y := rfl
@[simp] theorem Cpu.setNZ_s (k : Byte) (r : Cpu) : (r.setNZ k).s = r.s := rfl
@[simp] theorem Cpu.setNZ_pc (k : Byte) (r : Cpu) : (r.setNZ k).pc = r.pc := rfl
@[simp] theorem Cpu.setNZ_c (k : Byte) (r : Cpu) : (r.setNZ k).c = r.c := rfl
@[simp] theorem Cpu.setNZ_z (k : Byte) (r : Cpu) : (r.setNZ k).z = (k == 0) := rfl
@[simp] theorem Cpu.setNZ_i (k : Byte) (r : Cpu) : (r.setNZ k).i = r.i := rfl
@[simp] theorem Cpu.setNZ_d (k : Byte) (r : Cpu) : (r.setNZ k).d = r.d := rfl
@[simp] theorem Cpu.setNZ_v (k : Byte) (r : Cpu) : (r.setNZ k).v = r.v := rfl
@[simp] theorem Cpu.setNZ_n (k : Byte) (r : Cpu) : (r.setNZ k).n = k.msb := rfl
@[simp] theorem Cpu.setNZ_nmiPrev (k : Byte) (r : Cpu) : (r.setNZ k).nmiPrev = r.nmiPrev := rfl
@[simp] theorem Cpu.setNZ_nmiPending (k : Byte) (r : Cpu) : (r.setNZ k).nmiPending = r.nmiPending := rfl
@[simp] theorem Cpu.setNZ_resetPending (k : Byte) (r : Cpu) : (r.setNZ k).resetPending = r.resetPending := rfl
@[simp] theorem Cpu.setNZ_halted (k : Byte) (r : Cpu) : (r.setNZ k).halted = r.halted := rfl
@[simp] theorem Cpu.setNZ_cyc (k : Byte) (r : Cpu) : (r.setNZ k).cyc = r.cyc := rfl
@[simp] theorem Cpu.setNZ_cycles (k : Byte) (r : Cpu) : (r.setNZ k).cycles = r.cycles := rfl

/-! ### Pulling `P` (R25) -/

@[simp] theorem Cpu.setP_a (k : Byte) (r : Cpu) : (r.setP k).a = r.a := rfl
@[simp] theorem Cpu.setP_x (k : Byte) (r : Cpu) : (r.setP k).x = r.x := rfl
@[simp] theorem Cpu.setP_y (k : Byte) (r : Cpu) : (r.setP k).y = r.y := rfl
@[simp] theorem Cpu.setP_s (k : Byte) (r : Cpu) : (r.setP k).s = r.s := rfl
@[simp] theorem Cpu.setP_pc (k : Byte) (r : Cpu) : (r.setP k).pc = r.pc := rfl
@[simp] theorem Cpu.setP_c (k : Byte) (r : Cpu) : (r.setP k).c = k.getLsbD 0 := rfl
@[simp] theorem Cpu.setP_z (k : Byte) (r : Cpu) : (r.setP k).z = k.getLsbD 1 := rfl
@[simp] theorem Cpu.setP_i (k : Byte) (r : Cpu) : (r.setP k).i = k.getLsbD 2 := rfl
@[simp] theorem Cpu.setP_d (k : Byte) (r : Cpu) : (r.setP k).d = k.getLsbD 3 := rfl
@[simp] theorem Cpu.setP_v (k : Byte) (r : Cpu) : (r.setP k).v = k.getLsbD 6 := rfl
@[simp] theorem Cpu.setP_n (k : Byte) (r : Cpu) : (r.setP k).n = k.getLsbD 7 := rfl
@[simp] theorem Cpu.setP_nmiPrev (k : Byte) (r : Cpu) : (r.setP k).nmiPrev = r.nmiPrev := rfl
@[simp] theorem Cpu.setP_nmiPending (k : Byte) (r : Cpu) : (r.setP k).nmiPending = r.nmiPending := rfl
@[simp] theorem Cpu.setP_resetPending (k : Byte) (r : Cpu) : (r.setP k).resetPending = r.resetPending := rfl
@[simp] theorem Cpu.setP_halted (k : Byte) (r : Cpu) : (r.setP k).halted = r.halted := rfl
@[simp] theorem Cpu.setP_cyc (k : Byte) (r : Cpu) : (r.setP k).cyc = r.cyc := rfl
@[simp] theorem Cpu.setP_cycles (k : Byte) (r : Cpu) : (r.setP k).cycles = r.cycles := rfl

/-! ### `Compare` (R180) -/

@[simp] theorem Cpu.compare_a (q k : Byte) (r : Cpu) : (r.compare q k).a = r.a := rfl
@[simp] theorem Cpu.compare_x (q k : Byte) (r : Cpu) : (r.compare q k).x = r.x := rfl
@[simp] theorem Cpu.compare_y (q k : Byte) (r : Cpu) : (r.compare q k).y = r.y := rfl
@[simp] theorem Cpu.compare_s (q k : Byte) (r : Cpu) : (r.compare q k).s = r.s := rfl
@[simp] theorem Cpu.compare_pc (q k : Byte) (r : Cpu) : (r.compare q k).pc = r.pc := rfl
@[simp] theorem Cpu.compare_c (q k : Byte) (r : Cpu) : (r.compare q k).c = decide (k.toNat ≤ q.toNat) := rfl
@[simp] theorem Cpu.compare_z (q k : Byte) (r : Cpu) : (r.compare q k).z = (q == k) := rfl
@[simp] theorem Cpu.compare_i (q k : Byte) (r : Cpu) : (r.compare q k).i = r.i := rfl
@[simp] theorem Cpu.compare_d (q k : Byte) (r : Cpu) : (r.compare q k).d = r.d := rfl
@[simp] theorem Cpu.compare_v (q k : Byte) (r : Cpu) : (r.compare q k).v = r.v := rfl
@[simp] theorem Cpu.compare_n (q k : Byte) (r : Cpu) : (r.compare q k).n = (q - k).msb := rfl
@[simp] theorem Cpu.compare_nmiPrev (q k : Byte) (r : Cpu) : (r.compare q k).nmiPrev = r.nmiPrev := rfl
@[simp] theorem Cpu.compare_nmiPending (q k : Byte) (r : Cpu) : (r.compare q k).nmiPending = r.nmiPending := rfl
@[simp] theorem Cpu.compare_resetPending (q k : Byte) (r : Cpu) : (r.compare q k).resetPending = r.resetPending := rfl
@[simp] theorem Cpu.compare_halted (q k : Byte) (r : Cpu) : (r.compare q k).halted = r.halted := rfl
@[simp] theorem Cpu.compare_cyc (q k : Byte) (r : Cpu) : (r.compare q k).cyc = r.cyc := rfl
@[simp] theorem Cpu.compare_cycles (q k : Byte) (r : Cpu) : (r.compare q k).cycles = r.cycles := rfl

/-! ### BIT (R178) -/

@[simp] theorem Cpu.bitTest_a (k : Byte) (r : Cpu) : (r.bitTest k).a = r.a := rfl
@[simp] theorem Cpu.bitTest_x (k : Byte) (r : Cpu) : (r.bitTest k).x = r.x := rfl
@[simp] theorem Cpu.bitTest_y (k : Byte) (r : Cpu) : (r.bitTest k).y = r.y := rfl
@[simp] theorem Cpu.bitTest_s (k : Byte) (r : Cpu) : (r.bitTest k).s = r.s := rfl
@[simp] theorem Cpu.bitTest_pc (k : Byte) (r : Cpu) : (r.bitTest k).pc = r.pc := rfl
@[simp] theorem Cpu.bitTest_c (k : Byte) (r : Cpu) : (r.bitTest k).c = r.c := rfl
@[simp] theorem Cpu.bitTest_z (k : Byte) (r : Cpu) : (r.bitTest k).z = ((r.a &&& k) == 0) := rfl
@[simp] theorem Cpu.bitTest_i (k : Byte) (r : Cpu) : (r.bitTest k).i = r.i := rfl
@[simp] theorem Cpu.bitTest_d (k : Byte) (r : Cpu) : (r.bitTest k).d = r.d := rfl
@[simp] theorem Cpu.bitTest_v (k : Byte) (r : Cpu) : (r.bitTest k).v = k.getLsbD 6 := rfl
@[simp] theorem Cpu.bitTest_n (k : Byte) (r : Cpu) : (r.bitTest k).n = k.getLsbD 7 := rfl
@[simp] theorem Cpu.bitTest_nmiPrev (k : Byte) (r : Cpu) : (r.bitTest k).nmiPrev = r.nmiPrev := rfl
@[simp] theorem Cpu.bitTest_nmiPending (k : Byte) (r : Cpu) : (r.bitTest k).nmiPending = r.nmiPending := rfl
@[simp] theorem Cpu.bitTest_resetPending (k : Byte) (r : Cpu) : (r.bitTest k).resetPending = r.resetPending := rfl
@[simp] theorem Cpu.bitTest_halted (k : Byte) (r : Cpu) : (r.bitTest k).halted = r.halted := rfl
@[simp] theorem Cpu.bitTest_cyc (k : Byte) (r : Cpu) : (r.bitTest k).cyc = r.cyc := rfl
@[simp] theorem Cpu.bitTest_cycles (k : Byte) (r : Cpu) : (r.bitTest k).cycles = r.cycles := rfl

/-! ### The shifts (R196 to R199) -/

@[simp] theorem Cpu.shiftFlags_a (b : Bool) (k : Byte) (r : Cpu) : (r.shiftFlags b k).a = r.a := rfl
@[simp] theorem Cpu.shiftFlags_x (b : Bool) (k : Byte) (r : Cpu) : (r.shiftFlags b k).x = r.x := rfl
@[simp] theorem Cpu.shiftFlags_y (b : Bool) (k : Byte) (r : Cpu) : (r.shiftFlags b k).y = r.y := rfl
@[simp] theorem Cpu.shiftFlags_s (b : Bool) (k : Byte) (r : Cpu) : (r.shiftFlags b k).s = r.s := rfl
@[simp] theorem Cpu.shiftFlags_pc (b : Bool) (k : Byte) (r : Cpu) : (r.shiftFlags b k).pc = r.pc := rfl
@[simp] theorem Cpu.shiftFlags_c (b : Bool) (k : Byte) (r : Cpu) : (r.shiftFlags b k).c = b := rfl
@[simp] theorem Cpu.shiftFlags_z (b : Bool) (k : Byte) (r : Cpu) : (r.shiftFlags b k).z = (k == 0) := rfl
@[simp] theorem Cpu.shiftFlags_i (b : Bool) (k : Byte) (r : Cpu) : (r.shiftFlags b k).i = r.i := rfl
@[simp] theorem Cpu.shiftFlags_d (b : Bool) (k : Byte) (r : Cpu) : (r.shiftFlags b k).d = r.d := rfl
@[simp] theorem Cpu.shiftFlags_v (b : Bool) (k : Byte) (r : Cpu) : (r.shiftFlags b k).v = r.v := rfl
@[simp] theorem Cpu.shiftFlags_n (b : Bool) (k : Byte) (r : Cpu) : (r.shiftFlags b k).n = k.msb := rfl
@[simp] theorem Cpu.shiftFlags_nmiPrev (b : Bool) (k : Byte) (r : Cpu) : (r.shiftFlags b k).nmiPrev = r.nmiPrev := rfl
@[simp] theorem Cpu.shiftFlags_nmiPending (b : Bool) (k : Byte) (r : Cpu) : (r.shiftFlags b k).nmiPending = r.nmiPending := rfl
@[simp] theorem Cpu.shiftFlags_resetPending (b : Bool) (k : Byte) (r : Cpu) : (r.shiftFlags b k).resetPending = r.resetPending := rfl
@[simp] theorem Cpu.shiftFlags_halted (b : Bool) (k : Byte) (r : Cpu) : (r.shiftFlags b k).halted = r.halted := rfl
@[simp] theorem Cpu.shiftFlags_cyc (b : Bool) (k : Byte) (r : Cpu) : (r.shiftFlags b k).cyc = r.cyc := rfl
@[simp] theorem Cpu.shiftFlags_cycles (b : Bool) (k : Byte) (r : Cpu) : (r.shiftFlags b k).cycles = r.cycles := rfl

/-! ### `AddWithCarry` (R179) -/

@[simp] theorem Cpu.addWithCarry_a (k : Byte) (r : Cpu) : (r.addWithCarry k).a = BitVec.ofNat 8 (addSum r.a k r.c) := rfl
@[simp] theorem Cpu.addWithCarry_x (k : Byte) (r : Cpu) : (r.addWithCarry k).x = r.x := rfl
@[simp] theorem Cpu.addWithCarry_y (k : Byte) (r : Cpu) : (r.addWithCarry k).y = r.y := rfl
@[simp] theorem Cpu.addWithCarry_s (k : Byte) (r : Cpu) : (r.addWithCarry k).s = r.s := rfl
@[simp] theorem Cpu.addWithCarry_pc (k : Byte) (r : Cpu) : (r.addWithCarry k).pc = r.pc := rfl
@[simp] theorem Cpu.addWithCarry_c (k : Byte) (r : Cpu) : (r.addWithCarry k).c = decide (addSum r.a k r.c > 0xFF) := rfl
@[simp] theorem Cpu.addWithCarry_z (k : Byte) (r : Cpu) : (r.addWithCarry k).z = (BitVec.ofNat 8 (addSum r.a k r.c) == 0) := rfl
@[simp] theorem Cpu.addWithCarry_i (k : Byte) (r : Cpu) : (r.addWithCarry k).i = r.i := rfl
@[simp] theorem Cpu.addWithCarry_d (k : Byte) (r : Cpu) : (r.addWithCarry k).d = r.d := rfl
@[simp] theorem Cpu.addWithCarry_v (k : Byte) (r : Cpu) : (r.addWithCarry k).v = addOverflow r.a k (BitVec.ofNat 8 (addSum r.a k r.c)) := rfl
@[simp] theorem Cpu.addWithCarry_n (k : Byte) (r : Cpu) : (r.addWithCarry k).n = (BitVec.ofNat 8 (addSum r.a k r.c)).msb := rfl
@[simp] theorem Cpu.addWithCarry_nmiPrev (k : Byte) (r : Cpu) : (r.addWithCarry k).nmiPrev = r.nmiPrev := rfl
@[simp] theorem Cpu.addWithCarry_nmiPending (k : Byte) (r : Cpu) : (r.addWithCarry k).nmiPending = r.nmiPending := rfl
@[simp] theorem Cpu.addWithCarry_resetPending (k : Byte) (r : Cpu) : (r.addWithCarry k).resetPending = r.resetPending := rfl
@[simp] theorem Cpu.addWithCarry_halted (k : Byte) (r : Cpu) : (r.addWithCarry k).halted = r.halted := rfl
@[simp] theorem Cpu.addWithCarry_cyc (k : Byte) (r : Cpu) : (r.addWithCarry k).cyc = r.cyc := rfl
@[simp] theorem Cpu.addWithCarry_cycles (k : Byte) (r : Cpu) : (r.addWithCarry k).cycles = r.cycles := rfl

/-! ### The byte `P` -/

theorem flagBit_getLsbD (b : Bool) (i j : Nat) (hj : j < 8) :
    (flagBit b i).getLsbD j = (b && decide (i = j)) := by
  unfold flagBit
  cases b
  · simp
  · rw [if_pos rfl, BitVec.getLsbD_shiftLeft]
    by_cases h : i = j
    · subst h; simp [hj]
    · by_cases h' : j < i
      · simp [h', h]
      · simp [h]
        omega

/-- Bit by bit, the pushed status byte: N V 1 B D I Z C (R25). -/
theorem pushedP_bits (b : Bool) (r : Cpu) :
    (r.pushedP b).getLsbD 7 = r.n ∧ (r.pushedP b).getLsbD 6 = r.v ∧ (r.pushedP b).getLsbD 5 = true ∧
    (r.pushedP b).getLsbD 4 = b ∧ (r.pushedP b).getLsbD 3 = r.d ∧ (r.pushedP b).getLsbD 2 = r.i ∧
    (r.pushedP b).getLsbD 1 = r.z ∧ (r.pushedP b).getLsbD 0 = r.c := by
  simp only [Cpu.pushedP, Cpu.p, BitVec.getLsbD_or]
  refine ⟨?_, ?_, ?_, ?_, ?_, ?_, ?_, ?_⟩ <;> simp (disch := decide) only [flagBit_getLsbD] <;> simp

/-- Pulling a pushed status byte gives back all six flags. -/
theorem setP_pushedP (b : Bool) (r q : Cpu) :
    q.setP (r.pushedP b) =
      { q with n := r.n, v := r.v, d := r.d, i := r.i, z := r.z, c := r.c } := by
  obtain ⟨h7, h6, -, -, h3, h2, h1, h0⟩ := pushedP_bits b r
  simp only [Cpu.setP, h7, h6, h3, h2, h1, h0]

end Sys2Proof.Machine
end

