-- ==== Sys2Proof/Laws/Memory.lean ====
section
/-! SUPPORT. The laws of the sparse memories: a read after a write, and that every operation keeps
the canonical form. -/

namespace Sys2Proof

section
variable {α : Type} [DecidableEq α] (d : α)

omit [DecidableEq α] in
theorem Sparse.get_erase (m : Sparse α) (a b : Nat) :
    Sparse.get d (Sparse.erase a m) b = if a = b then d else Sparse.get d m b := by
  induction m with
  | nil => simp [Sparse.erase, Sparse.get]
  | cons e m ih =>
    obtain ⟨k, v⟩ := e
    by_cases hk : k = a
    · subst hk
      by_cases hb : k = b <;> simp_all [Sparse.erase, Sparse.get]
    · by_cases hb : k = b <;> by_cases hab : a = b <;> simp_all [Sparse.erase, Sparse.get]

omit [DecidableEq α] in
theorem Sparse.get_insert (m : Sparse α) (a b : Nat) (v : α) (h : Sparse.get d m a = d)
    (h' : ∀ e ∈ m, e.1 ≠ a) :
    Sparse.get d (Sparse.insert a v m) b = if a = b then v else Sparse.get d m b := by
  induction m with
  | nil => simp [Sparse.insert, Sparse.get]
  | cons e m ih =>
    obtain ⟨k, w⟩ := e
    have hk : k ≠ a := h' (k, w) (by simp)
    have ih' := ih (by simpa [Sparse.get, hk] using h) (fun e he => h' e (by simp [he]))
    by_cases hlt : a < k
    · simp [Sparse.insert, Sparse.get, hlt]
    · by_cases hb : k = b
      · subst hb
        simp [Sparse.insert, Sparse.get, hlt, Ne.symm hk]
      · simp [Sparse.insert, Sparse.get, hlt, hb, ih']

omit [DecidableEq α] in
theorem Sparse.mem_erase {m : Sparse α} {a : Nat} {e : Nat × α} (h : e ∈ Sparse.erase a m) :
    e ∈ m ∧ e.1 ≠ a := by
  induction m with
  | nil => simp [Sparse.erase] at h
  | cons x m ih =>
    obtain ⟨k, v⟩ := x
    by_cases hk : k = a
    · obtain ⟨h1, h2⟩ := ih (by simpa [Sparse.erase, hk] using h)
      exact ⟨by simp [h1], h2⟩
    · simp only [Sparse.erase, hk, if_false, List.mem_cons] at h
      rcases h with rfl | h
      · exact ⟨by simp, hk⟩
      · exact ⟨by simp [(ih h).1], (ih h).2⟩

omit [DecidableEq α] in
theorem Sparse.mem_insert {m : Sparse α} {a : Nat} {v : α} {e : Nat × α}
    (h : e ∈ Sparse.insert a v m) : e = (a, v) ∨ e ∈ m := by
  induction m with
  | nil => simpa [Sparse.insert] using h
  | cons x m ih =>
    obtain ⟨k, w⟩ := x
    by_cases hlt : a < k
    · simpa [Sparse.insert, hlt] using h
    · simp only [Sparse.insert, hlt, if_false, List.mem_cons] at h
      rcases h with rfl | h
      · simp
      · rcases ih h with h | h <;> simp [h]

/-- A read after a write: the written value at its key, the old value at every other. No canonical
form is needed. -/
theorem Sparse.get_set (m : Sparse α) (a b : Nat) (v : α) :
    Sparse.get d (Sparse.set d m a v) b = if a = b then v else Sparse.get d m b := by
  unfold Sparse.set
  by_cases hv : v = d
  · subst hv
    simp [Sparse.get_erase]
  · simp only [hv, if_false]
    rw [Sparse.get_insert d _ a b v (by simp [Sparse.get_erase])
      (fun e he => (Sparse.mem_erase he).2), Sparse.get_erase]
    by_cases hab : a = b <;> simp [hab]

/-- The canonical form, as a proposition over a list's head and tail. -/
theorem Sparse.wf_cons (n k : Nat) (v : α) (m : Sparse α) :
    Sparse.wf d n ((k, v) :: m) = true ↔
      v ≠ d ∧ k < n ∧ (∀ e ∈ m, k < e.1) ∧ Sparse.wf d n m = true := by
  simp [Sparse.wf, and_assoc]

theorem Sparse.wf_erase {n : Nat} {m : Sparse α} (a : Nat) (h : Sparse.wf d n m = true) :
    Sparse.wf d n (Sparse.erase a m) = true := by
  induction m with
  | nil => simpa [Sparse.erase] using h
  | cons x m ih =>
    obtain ⟨k, v⟩ := x
    obtain ⟨hv, hk, hlt, hm⟩ := (Sparse.wf_cons d n k v m).1 h
    by_cases hka : k = a
    · simpa [Sparse.erase, hka] using ih hm
    · simp only [Sparse.erase, hka, if_false]
      exact (Sparse.wf_cons d n k v _).2
        ⟨hv, hk, fun e he => hlt e (Sparse.mem_erase he).1, ih hm⟩

theorem Sparse.wf_insert {n a : Nat} {v : α} {m : Sparse α} (hv : v ≠ d) (ha : a < n)
    (hne : ∀ e ∈ m, e.1 ≠ a) (h : Sparse.wf d n m = true) :
    Sparse.wf d n (Sparse.insert a v m) = true := by
  induction m with
  | nil => simp [Sparse.insert, Sparse.wf, hv, ha]
  | cons x m ih =>
    obtain ⟨k, w⟩ := x
    obtain ⟨hw, hk, hlt, hm⟩ := (Sparse.wf_cons d n k w m).1 h
    have hka : k ≠ a := hne (k, w) (by simp)
    by_cases hl : a < k
    · simp only [Sparse.insert, hl, if_true]
      refine (Sparse.wf_cons d n a v _).2 ⟨hv, ha, fun e he => ?_, h⟩
      rcases List.mem_cons.1 he with rfl | he
      · exact hl
      · exact lt_trans hl (hlt e he)
    · simp only [Sparse.insert, hl, if_false]
      refine (Sparse.wf_cons d n k w _).2
        ⟨hw, hk, fun e he => ?_, ih (fun e he => hne e (by simp [he])) hm⟩
      rcases Sparse.mem_insert he with rfl | he
      · simp only; omega
      · exact hlt e he

/-- A write inside the bound keeps the canonical form. -/
theorem Sparse.wf_set {n a : Nat} (v : α) {m : Sparse α} (ha : a < n) (h : Sparse.wf d n m = true) :
    Sparse.wf d n (Sparse.set d m a v) = true := by
  unfold Sparse.set
  by_cases hv : v = d
  · simpa [hv] using Sparse.wf_erase d a h
  · simp only [hv, if_false]
    exact Sparse.wf_insert d hv ha (fun e he => (Sparse.mem_erase he).2) (Sparse.wf_erase d a h)

/-- Where an entry of a written list comes from. -/
theorem Sparse.mem_set {m : Sparse α} {a : Nat} {v : α} {e : Nat × α} (h : e ∈ Sparse.set d m a v) :
    e = (a, v) ∨ e ∈ m := by
  unfold Sparse.set at h
  by_cases hv : v = d
  · rw [if_pos hv] at h
    exact .inr (Sparse.mem_erase h).1
  · rw [if_neg hv] at h
    rcases Sparse.mem_insert h with h | h
    · exact .inl h
    · exact .inr (Sparse.mem_erase h).1

omit [DecidableEq α] in
/-- Every value read is a value listed, or the default. -/
theorem Sparse.get_mem (m : Sparse α) (a : Nat) :
    Sparse.get d m a = d ∨ (a, Sparse.get d m a) ∈ m := by
  induction m with
  | nil => simp [Sparse.get]
  | cons x m ih =>
    obtain ⟨k, v⟩ := x
    by_cases hk : k = a
    · subst hk; simp [Sparse.get]
    · rcases ih with h | h <;> simp [Sparse.get, hk, h]

end

/-- A read after a write, one lemma for both cases. -/
theorem Memory.read_write {w : Nat} (m : Memory w) (a b : Nat) (v : BitVec w) :
    (m.write a v).read b = if a = b then v else m.read b := Sparse.get_set 0 m a b v

@[simp] theorem Memory.read_write_same {w : Nat} (m : Memory w) (a : Nat) (v : BitVec w) :
    (m.write a v).read a = v := by simp [Memory.read_write]

theorem Memory.read_write_other {w : Nat} (m : Memory w) {a b : Nat} (v : BitVec w) (h : a ≠ b) :
    (m.write a v).read b = m.read b := by simp [Memory.read_write, h]

@[simp] theorem Memory.read_nil {w : Nat} (a : Nat) : Memory.read ([] : Memory w) a = 0 := rfl

theorem Memory.wf_write {w n a : Nat} {m : Memory w} (v : BitVec w) (ha : a < n)
    (h : m.wf n = true) : (m.write a v).wf n = true := Sparse.wf_set 0 v ha h

@[simp] theorem Memory.wf_nil {w n : Nat} : Memory.wf n ([] : Memory w) = true := rfl

theorem Memory.mem_write {w a : Nat} {m : Memory w} {v : BitVec w} {e : Nat × BitVec w}
    (h : e ∈ m.write a v) : e = (a, v) ∨ e ∈ m := Sparse.mem_set 0 h

/-- Every key of a list of bytes laid from `a` up is in range. -/
theorem Memory.mem_ofBytes {w : Nat} {a : Nat} {vs : List (BitVec w)} {e : Nat × BitVec w}
    (h : e ∈ Memory.ofBytes a vs) : a ≤ e.1 ∧ e.1 < a + vs.length := by
  induction vs generalizing a with
  | nil => simp [Memory.ofBytes] at h
  | cons v vs ih =>
    simp only [Memory.ofBytes] at h
    split at h
    · have := ih h
      simp only [List.length_cons]; omega
    · rcases List.mem_cons.1 h with rfl | h
      · simp
      · have := ih h
        simp only [List.length_cons]; omega

/-- A list of bytes laid from `a` up is canonical. -/
theorem Memory.wf_ofBytes {w : Nat} (a n : Nat) (vs : List (BitVec w)) (h : a + vs.length ≤ n) :
    (Memory.ofBytes a vs).wf n = true := by
  induction vs generalizing a with
  | nil => rfl
  | cons v vs ih =>
    simp only [List.length_cons] at h
    have ih' := ih (a + 1) (by omega)
    simp only [Memory.ofBytes]
    split
    · exact ih'
    · rename_i hv
      refine (Sparse.wf_cons 0 n a v _).2 ⟨hv, by omega, fun e he => ?_, ih'⟩
      have := Memory.mem_ofBytes he
      omega

/-- Reading back a list of bytes laid from `a` up. -/
theorem Memory.read_ofBytes {w : Nat} (a b : Nat) (vs : List (BitVec w)) :
    (Memory.ofBytes a vs).read b = if a ≤ b then vs.getD (b - a) 0 else 0 := by
  induction vs generalizing a with
  | nil => simp [Memory.ofBytes]
  | cons v vs ih =>
    simp only [Memory.ofBytes]
    by_cases hab : a = b
    · subst hab
      split
      · rename_i hv; rw [ih]; simp [hv]
      · simp [Memory.read, Sparse.get]
    · have hread : (if v = 0 then Memory.ofBytes (a + 1) vs else
          ((a, v) :: Memory.ofBytes (a + 1) vs : Memory w)).read b = (Memory.ofBytes (a + 1) vs).read b := by
        split
        · rfl
        · simp [Memory.read, Sparse.get, hab]
      rw [hread, ih]
      by_cases hle : a + 1 ≤ b
      · have : b - a = (b - (a + 1)) + 1 := by omega
        rw [if_pos hle, if_pos (by omega), this]; simp
      · rw [if_neg hle, if_neg (by omega)]

/-- A pixel read after a pixel written. -/
theorem FrameBuffer.pixel_setPixel (f : FrameBuffer) (x y x' y' : Nat) (c : BitVec 6) :
    (f.setPixel x y c).pixel x' y' = if y = y' ∧ x = x' then c else f.pixel x' y' := by
  unfold FrameBuffer.setPixel FrameBuffer.pixel
  rw [Sparse.get_set]
  by_cases hy : y = y'
  · subst hy
    by_cases hx : x = x' <;> simp [Memory.read_write, hx]
  · simp [hy]

/-- A pixel written inside the raster keeps its canonical form. -/
theorem FrameBuffer.wf_setPixel {f : FrameBuffer} {x y : Nat} (c : BitVec 6) (hx : x < 256)
    (hy : y < 240) (h : f.wf = true) : (f.setPixel x y c).wf = true := by
  simp only [FrameBuffer.wf, Bool.and_eq_true, List.all_eq_true] at h ⊢
  obtain ⟨hf, hrows⟩ := h
  refine ⟨Sparse.wf_set [] _ hy hf, fun e he => ?_⟩
  rcases Sparse.mem_set [] he with rfl | he
  · refine Memory.wf_write c hx ?_
    rcases Sparse.get_mem ([] : Memory 6) f y with hg | hg
    · rw [hg]; rfl
    · exact hrows _ hg
  · exact hrows e he

end Sys2Proof
end

