-- ==== Sys2Proof/Laws/Bus.lean ====
section
/-! SUPPORT. What a bus access can do, said once: a read changes no memory and no CPU register but
the NMI latches; a write reaches RAM, the PPU, the board, the controllers or, at `$4014`, OAM and
the cycle tally. -/

namespace Sys2Proof.Machine

/-! ## The NMI edge detector -/

@[simp] theorem observeNmi_ram (s : State) : (observeNmi s).ram = s.ram := rfl
@[simp] theorem observeNmi_ppu (s : State) : (observeNmi s).ppu = s.ppu := rfl
@[simp] theorem observeNmi_board (s : State) : (observeNmi s).board = s.board := rfl
@[simp] theorem observeNmi_ctl (s : State) : (observeNmi s).ctl = s.ctl := rfl
@[simp] theorem observeNmi_ports (s : State) : (observeNmi s).ports = s.ports := rfl
theorem observeNmi_cpu (s : State) :
    (observeNmi s).cpu = s.cpu.setNmi s.ppu.nmiOut (s.cpu.nmiPending || (s.ppu.nmiOut && !s.cpu.nmiPrev)) := rfl

@[simp] theorem observeNmi_cpu_a (s : State) : (observeNmi s).cpu.a = s.cpu.a := rfl
@[simp] theorem observeNmi_cpu_x (s : State) : (observeNmi s).cpu.x = s.cpu.x := rfl
@[simp] theorem observeNmi_cpu_y (s : State) : (observeNmi s).cpu.y = s.cpu.y := rfl
@[simp] theorem observeNmi_cpu_s (s : State) : (observeNmi s).cpu.s = s.cpu.s := rfl
@[simp] theorem observeNmi_cpu_pc (s : State) : (observeNmi s).cpu.pc = s.cpu.pc := rfl
@[simp] theorem observeNmi_cpu_c (s : State) : (observeNmi s).cpu.c = s.cpu.c := rfl
@[simp] theorem observeNmi_cpu_z (s : State) : (observeNmi s).cpu.z = s.cpu.z := rfl
@[simp] theorem observeNmi_cpu_i (s : State) : (observeNmi s).cpu.i = s.cpu.i := rfl
@[simp] theorem observeNmi_cpu_d (s : State) : (observeNmi s).cpu.d = s.cpu.d := rfl
@[simp] theorem observeNmi_cpu_v (s : State) : (observeNmi s).cpu.v = s.cpu.v := rfl
@[simp] theorem observeNmi_cpu_n (s : State) : (observeNmi s).cpu.n = s.cpu.n := rfl
@[simp] theorem observeNmi_cpu_resetPending (s : State) : (observeNmi s).cpu.resetPending = s.cpu.resetPending := rfl
@[simp] theorem observeNmi_cpu_halted (s : State) : (observeNmi s).cpu.halted = s.cpu.halted := rfl
@[simp] theorem observeNmi_cpu_cyc (s : State) : (observeNmi s).cpu.cyc = s.cpu.cyc := rfl
@[simp] theorem observeNmi_cpu_cycles (s : State) : (observeNmi s).cpu.cycles = s.cpu.cycles := rfl

/-! ## Reads -/

/-- Reading does not look at the CPU. -/
@[simp] theorem busByte_mapCpu (a : Addr) (f : Cpu → Cpu) (s : State) :
    busByte a (s.mapCpu f) = busByte a s := rfl

@[simp] theorem busByte_start (a : Addr) (k : Nat) (s : State) : busByte a (s.start k) = busByte a s := rfl

/-- A read below `$2000` is a RAM read with no side effect. -/
theorem busByte_ram {a : Addr} (h : a.toNat < 0x2000) (s : State) :
    busByte a s = s.ram.read (a.toNat % 0x800) := by simp [busByte, h, ramCell]

theorem afterRead_ram_addr {a : Addr} (h : a.toNat < 0x2000) (s : State) : afterRead a s = s := by
  simp [afterRead, h]

/-- A read of cartridge space has no side effect. -/
theorem busByte_cart {a : Addr} (h : 0x4020 ≤ a.toNat) (s : State) : busByte a s = s.board.cpuRead a := by
  have h1 : a ≠ 0x4016#16 := by rintro rfl; simp at h
  have h2 : a ≠ 0x4017#16 := by rintro rfl; simp at h
  simp [busByte, h1, h2, show ¬ a.toNat < 0x2000 by omega, show ¬ a.toNat < 0x4000 by omega,
    show ¬ a.toNat < 0x4016 by omega, show ¬ a.toNat < 0x4020 by omega]

theorem afterRead_cart {a : Addr} (h : 0x4020 ≤ a.toNat) (s : State) : afterRead a s = s := by
  have h1 : a ≠ 0x4016#16 := by rintro rfl; simp at h
  have h2 : a ≠ 0x4017#16 := by rintro rfl; simp at h
  simp [afterRead, h1, h2, show ¬ a.toNat < 0x2000 by omega, show ¬ a.toNat < 0x4000 by omega]

/-- THE READ, once: every case of what it leaves. -/
theorem afterRead_cases (a : Addr) (s : State) :
    afterRead a s = s ∨
    (0x2000 ≤ a.toNat ∧ a.toNat < 0x4000 ∧
      afterRead a s = observeNmi (s.setPpu (s.ppu.afterPortRead s.board (portOf a)))) ∨
    (a = 0x4016#16 ∧ afterRead a s = s.setCtl s.ctl.afterRead0) ∨
    (a = 0x4017#16 ∧ afterRead a s = s.setCtl s.ctl.afterRead1) := by
  unfold afterRead
  by_cases h1 : a.toNat < 0x2000
  · simp [h1]
  by_cases h2 : a.toNat < 0x4000
  · right; left
    exact ⟨by omega, h2, by simp [h1, h2]⟩
  by_cases h3 : a = 0x4016#16
  · right; right; left
    exact ⟨h3, by simp [h3]⟩
  by_cases h4 : a = 0x4017#16
  · right; right; right
    exact ⟨h4, by simp [h4]⟩
  · left; simp [h1, h2, h3, h4]

@[simp] theorem afterRead_ram (a : Addr) (s : State) : (afterRead a s).ram = s.ram := by
  rcases afterRead_cases a s with h | ⟨_, _, h⟩ | ⟨_, h⟩ | ⟨_, h⟩ <;> simp [h]
@[simp] theorem afterRead_board (a : Addr) (s : State) : (afterRead a s).board = s.board := by
  rcases afterRead_cases a s with h | ⟨_, _, h⟩ | ⟨_, h⟩ | ⟨_, h⟩ <;> simp [h]
@[simp] theorem afterRead_ports (a : Addr) (s : State) : (afterRead a s).ports = s.ports := by
  rcases afterRead_cases a s with h | ⟨_, _, h⟩ | ⟨_, h⟩ | ⟨_, h⟩ <;> simp [h]

@[simp] theorem afterRead_cpu_a (a : Addr) (s : State) : (afterRead a s).cpu.a = s.cpu.a := by
  rcases afterRead_cases a s with h | ⟨_, _, h⟩ | ⟨_, h⟩ | ⟨_, h⟩ <;> simp [h]
@[simp] theorem afterRead_cpu_x (a : Addr) (s : State) : (afterRead a s).cpu.x = s.cpu.x := by
  rcases afterRead_cases a s with h | ⟨_, _, h⟩ | ⟨_, h⟩ | ⟨_, h⟩ <;> simp [h]
@[simp] theorem afterRead_cpu_y (a : Addr) (s : State) : (afterRead a s).cpu.y = s.cpu.y := by
  rcases afterRead_cases a s with h | ⟨_, _, h⟩ | ⟨_, h⟩ | ⟨_, h⟩ <;> simp [h]
@[simp] theorem afterRead_cpu_s (a : Addr) (s : State) : (afterRead a s).cpu.s = s.cpu.s := by
  rcases afterRead_cases a s with h | ⟨_, _, h⟩ | ⟨_, h⟩ | ⟨_, h⟩ <;> simp [h]
@[simp] theorem afterRead_cpu_pc (a : Addr) (s : State) : (afterRead a s).cpu.pc = s.cpu.pc := by
  rcases afterRead_cases a s with h | ⟨_, _, h⟩ | ⟨_, h⟩ | ⟨_, h⟩ <;> simp [h]
@[simp] theorem afterRead_cpu_c (a : Addr) (s : State) : (afterRead a s).cpu.c = s.cpu.c := by
  rcases afterRead_cases a s with h | ⟨_, _, h⟩ | ⟨_, h⟩ | ⟨_, h⟩ <;> simp [h]
@[simp] theorem afterRead_cpu_z (a : Addr) (s : State) : (afterRead a s).cpu.z = s.cpu.z := by
  rcases afterRead_cases a s with h | ⟨_, _, h⟩ | ⟨_, h⟩ | ⟨_, h⟩ <;> simp [h]
@[simp] theorem afterRead_cpu_i (a : Addr) (s : State) : (afterRead a s).cpu.i = s.cpu.i := by
  rcases afterRead_cases a s with h | ⟨_, _, h⟩ | ⟨_, h⟩ | ⟨_, h⟩ <;> simp [h]
@[simp] theorem afterRead_cpu_d (a : Addr) (s : State) : (afterRead a s).cpu.d = s.cpu.d := by
  rcases afterRead_cases a s with h | ⟨_, _, h⟩ | ⟨_, h⟩ | ⟨_, h⟩ <;> simp [h]
@[simp] theorem afterRead_cpu_v (a : Addr) (s : State) : (afterRead a s).cpu.v = s.cpu.v := by
  rcases afterRead_cases a s with h | ⟨_, _, h⟩ | ⟨_, h⟩ | ⟨_, h⟩ <;> simp [h]
@[simp] theorem afterRead_cpu_n (a : Addr) (s : State) : (afterRead a s).cpu.n = s.cpu.n := by
  rcases afterRead_cases a s with h | ⟨_, _, h⟩ | ⟨_, h⟩ | ⟨_, h⟩ <;> simp [h]
@[simp] theorem afterRead_cpu_resetPending (a : Addr) (s : State) : (afterRead a s).cpu.resetPending = s.cpu.resetPending := by
  rcases afterRead_cases a s with h | ⟨_, _, h⟩ | ⟨_, h⟩ | ⟨_, h⟩ <;> simp [h]
@[simp] theorem afterRead_cpu_halted (a : Addr) (s : State) : (afterRead a s).cpu.halted = s.cpu.halted := by
  rcases afterRead_cases a s with h | ⟨_, _, h⟩ | ⟨_, h⟩ | ⟨_, h⟩ <;> simp [h]
@[simp] theorem afterRead_cpu_cyc (a : Addr) (s : State) : (afterRead a s).cpu.cyc = s.cpu.cyc := by
  rcases afterRead_cases a s with h | ⟨_, _, h⟩ | ⟨_, h⟩ | ⟨_, h⟩ <;> simp [h]
@[simp] theorem afterRead_cpu_cycles (a : Addr) (s : State) : (afterRead a s).cpu.cycles = s.cpu.cycles := by
  rcases afterRead_cases a s with h | ⟨_, _, h⟩ | ⟨_, h⟩ | ⟨_, h⟩ <;> simp [h]

/-- A read changes none of the PPU's memories and no raster position. -/
theorem Ppu.afterPortRead_memories (b : Board) (r : Nat) (p : Ppu) :
    (p.afterPortRead b r).ntRam = p.ntRam ∧ (p.afterPortRead b r).palette = p.palette ∧
    (p.afterPortRead b r).oam = p.oam ∧ (p.afterPortRead b r).secOam = p.secOam ∧
    (p.afterPortRead b r).framebuffer = p.framebuffer := by
  unfold Ppu.afterPortRead
  split <;> simp [Ppu.incV]

theorem afterRead_ppu_memories (a : Addr) (s : State) :
    (afterRead a s).ppu.ntRam = s.ppu.ntRam ∧ (afterRead a s).ppu.palette = s.ppu.palette ∧
    (afterRead a s).ppu.oam = s.ppu.oam ∧ (afterRead a s).ppu.secOam = s.ppu.secOam ∧
    (afterRead a s).ppu.framebuffer = s.ppu.framebuffer := by
  rcases afterRead_cases a s with h | ⟨_, _, h⟩ | ⟨_, h⟩ | ⟨_, h⟩
  · simp [h]
  · simpa [h] using Ppu.afterPortRead_memories s.board (portOf a) s.ppu
  · simp [h]
  · simp [h]

/-- A read commutes with setting the cycle tally. -/
theorem afterRead_setCycles (a : Addr) (k : Nat) (s : State) :
    afterRead a (s.mapCpu (Cpu.setCycles k)) = (afterRead a s).mapCpu (Cpu.setCycles k) := by
  unfold afterRead
  split
  · rfl
  split
  · rfl
  split
  · rfl
  split <;> rfl

@[simp] theorem afterRead_start (a : Addr) (k : Nat) (s : State) :
    afterRead a (s.start k) = (afterRead a s).start k := afterRead_setCycles a k s

@[simp] theorem memRead_fst (a : Addr) (s : State) : (memRead a s).1 = busByte a s := rfl
@[simp] theorem memRead_snd (a : Addr) (s : State) : (memRead a s).2 = afterRead a s := rfl

/-- A 16-bit read in cartridge space: two ROM or RAM bytes, no side effect. -/
theorem memRead16_cart {a : Addr} (h : 0x4020 ≤ a.toNat) (h' : 0x4020 ≤ (a + 1).toNat) (s : State) :
    memRead16 a s = (abs16 (s.board.cpuRead a) (s.board.cpuRead (a + 1)), s) := by
  simp only [memRead16, memRead, busByte_cart h, afterRead_cart h, busByte_cart h', afterRead_cart h']

/-! ## Writes -/

/-- A write below `$2000` is a RAM write. -/
theorem memWrite_ram_addr {a : Addr} (h : a.toNat < 0x2000) (v : Byte) (s : State) :
    memWrite a v s = s.setRam (s.ram.write (a.toNat % 0x800) v) := by simp [memWrite, h, ramCell]

/-- THE WRITE, once: every case of what it does. -/
theorem memWrite_cases (a : Addr) (v : Byte) (s : State) :
    (a.toNat < 0x2000 ∧ memWrite a v s = s.setRam (s.ram.write (ramCell a) v)) ∨
    (0x2000 ≤ a.toNat ∧ a.toNat < 0x4000 ∧
      memWrite a v s = observeNmi ((s.setBoard (s.ppu.boardAfterPortWrite s.board (portOf a) v)).setPpu
        (s.ppu.afterPortWrite s.board (portOf a) v))) ∨
    (a = 0x4014#16 ∧ memWrite a v s = oamDma v s) ∨
    (a = 0x4016#16 ∧ memWrite a v s = s.setCtl (Controllers.write v s.ports)) ∨
    (0x4000 ≤ a.toNat ∧ a.toNat < 0x4020 ∧ a ≠ 0x4014#16 ∧ a ≠ 0x4016#16 ∧ memWrite a v s = s) ∨
    (0x4020 ≤ a.toNat ∧ memWrite a v s = s.setBoard (s.board.cpuWrite a v)) := by
  unfold memWrite
  by_cases h1 : a.toNat < 0x2000
  · left; simp [h1]
  by_cases h2 : a.toNat < 0x4000
  · right; left
    exact ⟨by omega, h2, by simp [h1, h2]⟩
  by_cases h3 : a = 0x4014#16
  · right; right; left
    exact ⟨h3, by simp [h3]⟩
  by_cases h4 : a = 0x4016#16
  · right; right; right; left
    exact ⟨h4, by simp [h4]⟩
  by_cases h5 : a.toNat < 0x4020
  · right; right; right; right; left
    exact ⟨by omega, h5, h3, h4, by simp [h1, h2, h3, h4, h5]⟩
  · right; right; right; right; right
    exact ⟨by omega, by simp [h1, h2, h3, h4, h5]⟩

/-! ## OAM DMA -/

/-- A relation that every read keeps, and every PPU replacement that touches OAM alone, is kept by
the copy of OAM DMA. -/
theorem dmaCopy_induction {P : State → Prop} (val : Byte)
    (hread : ∀ a s, P s → P (afterRead a s))
    (hoam : ∀ s m, P s → P (s.setPpu { s.ppu with oam := m })) :
    ∀ n i s, P s → P (dmaCopy val n i s) := by
  intro n
  induction n with
  | zero => intro i s h; exact h
  | succ n ih => intro i s h; exact ih _ _ (hoam _ _ (hread _ _ h))

theorem dmaCopy_ram (val : Byte) (n i : Nat) (s : State) : (dmaCopy val n i s).ram = s.ram :=
  dmaCopy_induction (P := fun t => t.ram = s.ram) val (by simp) (by simp) n i s rfl
theorem dmaCopy_board (val : Byte) (n i : Nat) (s : State) : (dmaCopy val n i s).board = s.board :=
  dmaCopy_induction (P := fun t => t.board = s.board) val (by simp) (by simp) n i s rfl
theorem dmaCopy_ports (val : Byte) (n i : Nat) (s : State) : (dmaCopy val n i s).ports = s.ports :=
  dmaCopy_induction (P := fun t => t.ports = s.ports) val (by simp) (by simp) n i s rfl

theorem dmaCopy_cpu_a (val : Byte) (n i : Nat) (s : State) :
    (dmaCopy val n i s).cpu.a = s.cpu.a :=
  dmaCopy_induction (P := fun t => t.cpu.a = s.cpu.a) val (by simp) (by simp) n i s rfl
theorem dmaCopy_cpu_x (val : Byte) (n i : Nat) (s : State) :
    (dmaCopy val n i s).cpu.x = s.cpu.x :=
  dmaCopy_induction (P := fun t => t.cpu.x = s.cpu.x) val (by simp) (by simp) n i s rfl
theorem dmaCopy_cpu_y (val : Byte) (n i : Nat) (s : State) :
    (dmaCopy val n i s).cpu.y = s.cpu.y :=
  dmaCopy_induction (P := fun t => t.cpu.y = s.cpu.y) val (by simp) (by simp) n i s rfl
theorem dmaCopy_cpu_s (val : Byte) (n i : Nat) (s : State) :
    (dmaCopy val n i s).cpu.s = s.cpu.s :=
  dmaCopy_induction (P := fun t => t.cpu.s = s.cpu.s) val (by simp) (by simp) n i s rfl
theorem dmaCopy_cpu_pc (val : Byte) (n i : Nat) (s : State) :
    (dmaCopy val n i s).cpu.pc = s.cpu.pc :=
  dmaCopy_induction (P := fun t => t.cpu.pc = s.cpu.pc) val (by simp) (by simp) n i s rfl
theorem dmaCopy_cpu_c (val : Byte) (n i : Nat) (s : State) :
    (dmaCopy val n i s).cpu.c = s.cpu.c :=
  dmaCopy_induction (P := fun t => t.cpu.c = s.cpu.c) val (by simp) (by simp) n i s rfl
theorem dmaCopy_cpu_z (val : Byte) (n i : Nat) (s : State) :
    (dmaCopy val n i s).cpu.z = s.cpu.z :=
  dmaCopy_induction (P := fun t => t.cpu.z = s.cpu.z) val (by simp) (by simp) n i s rfl
theorem dmaCopy_cpu_i (val : Byte) (n i : Nat) (s : State) :
    (dmaCopy val n i s).cpu.i = s.cpu.i :=
  dmaCopy_induction (P := fun t => t.cpu.i = s.cpu.i) val (by simp) (by simp) n i s rfl
theorem dmaCopy_cpu_d (val : Byte) (n i : Nat) (s : State) :
    (dmaCopy val n i s).cpu.d = s.cpu.d :=
  dmaCopy_induction (P := fun t => t.cpu.d = s.cpu.d) val (by simp) (by simp) n i s rfl
theorem dmaCopy_cpu_v (val : Byte) (n i : Nat) (s : State) :
    (dmaCopy val n i s).cpu.v = s.cpu.v :=
  dmaCopy_induction (P := fun t => t.cpu.v = s.cpu.v) val (by simp) (by simp) n i s rfl
theorem dmaCopy_cpu_n (val : Byte) (n i : Nat) (s : State) :
    (dmaCopy val n i s).cpu.n = s.cpu.n :=
  dmaCopy_induction (P := fun t => t.cpu.n = s.cpu.n) val (by simp) (by simp) n i s rfl
theorem dmaCopy_cpu_resetPending (val : Byte) (n i : Nat) (s : State) :
    (dmaCopy val n i s).cpu.resetPending = s.cpu.resetPending :=
  dmaCopy_induction (P := fun t => t.cpu.resetPending = s.cpu.resetPending) val (by simp) (by simp) n i s rfl
theorem dmaCopy_cpu_halted (val : Byte) (n i : Nat) (s : State) :
    (dmaCopy val n i s).cpu.halted = s.cpu.halted :=
  dmaCopy_induction (P := fun t => t.cpu.halted = s.cpu.halted) val (by simp) (by simp) n i s rfl
theorem dmaCopy_cpu_cyc (val : Byte) (n i : Nat) (s : State) :
    (dmaCopy val n i s).cpu.cyc = s.cpu.cyc :=
  dmaCopy_induction (P := fun t => t.cpu.cyc = s.cpu.cyc) val (by simp) (by simp) n i s rfl
theorem dmaCopy_cpu_cycles (val : Byte) (n i : Nat) (s : State) :
    (dmaCopy val n i s).cpu.cycles = s.cpu.cycles :=
  dmaCopy_induction (P := fun t => t.cpu.cycles = s.cpu.cycles) val (by simp) (by simp) n i s rfl

/-- OAM DMA commutes with setting the cycle tally, up to the stall it adds. -/
theorem dmaCopy_setCycles (val : Byte) (k : Nat) :
    ∀ n i s, dmaCopy val n i (s.mapCpu (Cpu.setCycles k)) = (dmaCopy val n i s).mapCpu (Cpu.setCycles k) := by
  intro n
  induction n with
  | zero => intro i s; rfl
  | succ n ih =>
    intro i s
    have : dmaByte val i (s.mapCpu (Cpu.setCycles k)) = (dmaByte val i s).mapCpu (Cpu.setCycles k) := by
      simp only [dmaByte, memRead, busByte_mapCpu, afterRead_setCycles]
      rfl
    simp only [dmaCopy, this, ih]

/-! ## Writes leave the CPU's registers alone -/

@[simp] theorem memWrite_cpu_a (a : Addr) (v : Byte) (s : State) : (memWrite a v s).cpu.a = s.cpu.a := by
  rcases memWrite_cases a v s with ⟨_, h⟩ | ⟨_, _, h⟩ | ⟨_, h⟩ | ⟨_, h⟩ | ⟨_, _, _, _, h⟩ | ⟨_, h⟩ <;>
    simp [h, oamDma, dmaCopy_cpu_a]
@[simp] theorem memWrite_cpu_x (a : Addr) (v : Byte) (s : State) : (memWrite a v s).cpu.x = s.cpu.x := by
  rcases memWrite_cases a v s with ⟨_, h⟩ | ⟨_, _, h⟩ | ⟨_, h⟩ | ⟨_, h⟩ | ⟨_, _, _, _, h⟩ | ⟨_, h⟩ <;>
    simp [h, oamDma, dmaCopy_cpu_x]
@[simp] theorem memWrite_cpu_y (a : Addr) (v : Byte) (s : State) : (memWrite a v s).cpu.y = s.cpu.y := by
  rcases memWrite_cases a v s with ⟨_, h⟩ | ⟨_, _, h⟩ | ⟨_, h⟩ | ⟨_, h⟩ | ⟨_, _, _, _, h⟩ | ⟨_, h⟩ <;>
    simp [h, oamDma, dmaCopy_cpu_y]
@[simp] theorem memWrite_cpu_s (a : Addr) (v : Byte) (s : State) : (memWrite a v s).cpu.s = s.cpu.s := by
  rcases memWrite_cases a v s with ⟨_, h⟩ | ⟨_, _, h⟩ | ⟨_, h⟩ | ⟨_, h⟩ | ⟨_, _, _, _, h⟩ | ⟨_, h⟩ <;>
    simp [h, oamDma, dmaCopy_cpu_s]
@[simp] theorem memWrite_cpu_pc (a : Addr) (v : Byte) (s : State) : (memWrite a v s).cpu.pc = s.cpu.pc := by
  rcases memWrite_cases a v s with ⟨_, h⟩ | ⟨_, _, h⟩ | ⟨_, h⟩ | ⟨_, h⟩ | ⟨_, _, _, _, h⟩ | ⟨_, h⟩ <;>
    simp [h, oamDma, dmaCopy_cpu_pc]
@[simp] theorem memWrite_cpu_c (a : Addr) (v : Byte) (s : State) : (memWrite a v s).cpu.c = s.cpu.c := by
  rcases memWrite_cases a v s with ⟨_, h⟩ | ⟨_, _, h⟩ | ⟨_, h⟩ | ⟨_, h⟩ | ⟨_, _, _, _, h⟩ | ⟨_, h⟩ <;>
    simp [h, oamDma, dmaCopy_cpu_c]
@[simp] theorem memWrite_cpu_z (a : Addr) (v : Byte) (s : State) : (memWrite a v s).cpu.z = s.cpu.z := by
  rcases memWrite_cases a v s with ⟨_, h⟩ | ⟨_, _, h⟩ | ⟨_, h⟩ | ⟨_, h⟩ | ⟨_, _, _, _, h⟩ | ⟨_, h⟩ <;>
    simp [h, oamDma, dmaCopy_cpu_z]
@[simp] theorem memWrite_cpu_i (a : Addr) (v : Byte) (s : State) : (memWrite a v s).cpu.i = s.cpu.i := by
  rcases memWrite_cases a v s with ⟨_, h⟩ | ⟨_, _, h⟩ | ⟨_, h⟩ | ⟨_, h⟩ | ⟨_, _, _, _, h⟩ | ⟨_, h⟩ <;>
    simp [h, oamDma, dmaCopy_cpu_i]
@[simp] theorem memWrite_cpu_d (a : Addr) (v : Byte) (s : State) : (memWrite a v s).cpu.d = s.cpu.d := by
  rcases memWrite_cases a v s with ⟨_, h⟩ | ⟨_, _, h⟩ | ⟨_, h⟩ | ⟨_, h⟩ | ⟨_, _, _, _, h⟩ | ⟨_, h⟩ <;>
    simp [h, oamDma, dmaCopy_cpu_d]
@[simp] theorem memWrite_cpu_v (a : Addr) (v : Byte) (s : State) : (memWrite a v s).cpu.v = s.cpu.v := by
  rcases memWrite_cases a v s with ⟨_, h⟩ | ⟨_, _, h⟩ | ⟨_, h⟩ | ⟨_, h⟩ | ⟨_, _, _, _, h⟩ | ⟨_, h⟩ <;>
    simp [h, oamDma, dmaCopy_cpu_v]
@[simp] theorem memWrite_cpu_n (a : Addr) (v : Byte) (s : State) : (memWrite a v s).cpu.n = s.cpu.n := by
  rcases memWrite_cases a v s with ⟨_, h⟩ | ⟨_, _, h⟩ | ⟨_, h⟩ | ⟨_, h⟩ | ⟨_, _, _, _, h⟩ | ⟨_, h⟩ <;>
    simp [h, oamDma, dmaCopy_cpu_n]
@[simp] theorem memWrite_cpu_resetPending (a : Addr) (v : Byte) (s : State) : (memWrite a v s).cpu.resetPending = s.cpu.resetPending := by
  rcases memWrite_cases a v s with ⟨_, h⟩ | ⟨_, _, h⟩ | ⟨_, h⟩ | ⟨_, h⟩ | ⟨_, _, _, _, h⟩ | ⟨_, h⟩ <;>
    simp [h, oamDma, dmaCopy_cpu_resetPending]
@[simp] theorem memWrite_cpu_halted (a : Addr) (v : Byte) (s : State) : (memWrite a v s).cpu.halted = s.cpu.halted := by
  rcases memWrite_cases a v s with ⟨_, h⟩ | ⟨_, _, h⟩ | ⟨_, h⟩ | ⟨_, h⟩ | ⟨_, _, _, _, h⟩ | ⟨_, h⟩ <;>
    simp [h, oamDma, dmaCopy_cpu_halted]
@[simp] theorem memWrite_cpu_cyc (a : Addr) (v : Byte) (s : State) : (memWrite a v s).cpu.cyc = s.cpu.cyc := by
  rcases memWrite_cases a v s with ⟨_, h⟩ | ⟨_, _, h⟩ | ⟨_, h⟩ | ⟨_, h⟩ | ⟨_, _, _, _, h⟩ | ⟨_, h⟩ <;>
    simp [h, oamDma, dmaCopy_cpu_cyc]

/-- Only a write of `$4014` adds to the cycle tally. -/
theorem memWrite_cpu_cycles {a : Addr} (ha : a ≠ 0x4014#16) (v : Byte) (s : State) :
    (memWrite a v s).cpu.cycles = s.cpu.cycles := by
  rcases memWrite_cases a v s with ⟨_, h⟩ | ⟨_, _, h⟩ | ⟨h, _⟩ | ⟨_, h⟩ | ⟨_, _, _, _, h⟩ | ⟨_, h⟩
  · simp [h]
  · simp [h]
  · exact absurd h ha
  · simp [h]
  · simp [h]
  · simp [h]

/-- A write of `$4014` adds the stall of R391. -/
theorem memWrite_dma_cycles (v : Byte) (s : State) :
    (memWrite 0x4014#16 v s).cpu.cycles =
      s.cpu.cycles + (if (s.cpu.cyc + s.cpu.cycles) % 2 = 1 then 514 else 513) := by
  rw [show memWrite 0x4014#16 v s = oamDma v s from rfl]
  simp [oamDma, dmaStall, dmaCopy_cpu_cyc, dmaCopy_cpu_cycles]

@[simp] theorem memWrite_ports (a : Addr) (v : Byte) (s : State) : (memWrite a v s).ports = s.ports := by
  rcases memWrite_cases a v s with ⟨_, h⟩ | ⟨_, _, h⟩ | ⟨_, h⟩ | ⟨_, h⟩ | ⟨_, _, _, _, h⟩ | ⟨_, h⟩ <;>
    simp [h, oamDma, dmaCopy_ports]

/-- A write commutes with setting the cycle tally, away from `$4014`. -/
theorem memWrite_setCycles {a : Addr} (ha : a ≠ 0x4014#16) (v : Byte) (k : Nat) (s : State) :
    memWrite a v (s.mapCpu (Cpu.setCycles k)) = (memWrite a v s).mapCpu (Cpu.setCycles k) := by
  unfold memWrite
  split
  · rfl
  split
  · rfl
  split
  · rfl
  split <;> rfl

/-! ## The stack: always in work RAM -/

theorem stackAddr_toNat (s : Byte) : (stackAddr s).toNat = 0x100 + s.toNat := by
  have h := s.isLt
  rw [stackAddr, abs16, BitVec.toNat_append, Nat.shiftLeft_eq, Nat.mul_comm,
    ← Nat.two_pow_add_eq_or_of_lt h]
  rfl

/-- PUSH, once: one RAM byte at `$0100 | S`, then S drops. -/
theorem push_eq (v : Byte) (s : State) :
    push v s = (s.setRam (s.ram.write (0x100 + s.cpu.s.toNat) v)).mapCpu (Cpu.setS (s.cpu.s - 1)) := by
  have h := s.cpu.s.isLt
  have hlt : (stackAddr s.cpu.s).toNat < 0x2000 := by rw [stackAddr_toNat]; omega
  simp only [push, memWrite_ram_addr hlt, stackAddr_toNat]
  rw [show (0x100 + s.cpu.s.toNat) % 0x800 = 0x100 + s.cpu.s.toNat by omega]
  rfl

/-- PULL, once: S rises, then the RAM byte at `$0100 | S`; no other effect. -/
theorem pull_eq (s : State) :
    pull s = (s.ram.read (0x100 + (s.cpu.s + 1).toNat), s.mapCpu (Cpu.setS (s.cpu.s + 1))) := by
  have h := (s.cpu.s + 1).isLt
  have hlt : (stackAddr (s.cpu.s + 1)).toNat < 0x2000 := by rw [stackAddr_toNat]; omega
  have e : (s.mapCpu (fun c => c.setS (c.s + 1))) = s.mapCpu (Cpu.setS (s.cpu.s + 1)) := rfl
  simp only [pull, e, State.mapCpu_cpu, Cpu.setS_s, memRead, afterRead_ram_addr hlt, busByte_ram hlt,
    stackAddr_toNat, State.mapCpu_ram]
  rw [show (0x100 + (s.cpu.s + 1).toNat) % 0x800 = 0x100 + (s.cpu.s + 1).toNat by omega]

/-- TAKING AN INTERRUPT, once: three bytes on the stack, I set, PC from the vector, 7 cycles. -/
theorem interrupt_eq {vector : Addr} (h : 0x4020 ≤ vector.toNat) (h' : 0x4020 ≤ (vector + 1).toNat)
    (b : Bool) (ret : Addr) (s : State) :
    interrupt vector b ret s =
      (s.setRam (((s.ram.write (0x100 + s.cpu.s.toNat) (hiByte ret)).write
          (0x100 + (s.cpu.s - 1).toNat) (loByte ret)).write
          (0x100 + (s.cpu.s - 1 - 1).toNat) (s.cpu.pushedP b))).mapCpu
        (fun c => (((c.setS (c.s - 1 - 1 - 1)).setI true).setPc
          (abs16 (s.board.cpuRead vector) (s.board.cpuRead (vector + 1)))).setCycles 7) := by
  simp only [interrupt, push_eq]
  rw [memRead16_cart h h']
  exact State.ext_parts rfl rfl rfl rfl rfl rfl

/-- THE RETURN, once: P from the first pulled byte, PC from the next two. -/
theorem returnFromInterrupt_eq (s : State) :
    returnFromInterrupt s =
      s.mapCpu (fun c =>
        ((c.setP (s.ram.read (0x100 + (s.cpu.s + 1).toNat))).setS (s.cpu.s + 1 + 1 + 1)).setPc
          (abs16 (s.ram.read (0x100 + (s.cpu.s + 1 + 1).toNat))
            (s.ram.read (0x100 + (s.cpu.s + 1 + 1 + 1).toNat)))) := by
  simp only [returnFromInterrupt, pull_eq, State.mapCpu_cpu, State.mapCpu_ram, State.mapCpu_mapCpu,
    Cpu.setS_s, Cpu.setP_s]
  congr 1

/-- RESET, once. -/
theorem resetSequence_eq (s : State) :
    resetSequence s =
      (s.mapCpu (fun c =>
        { c with
          s := c.s - 3, i := true, pc := abs16 (s.board.cpuRead 0xFFFC#16) (s.board.cpuRead 0xFFFD#16)
          nmiPending := false, resetPending := false, halted := false, cycles := 7 })).setPpu s.ppu.onReset := by
  simp only [resetSequence]
  rw [memRead16_cart (by decide) (by decide), show resetVector + 1 = 0xFFFD#16 by decide]
  rfl

end Sys2Proof.Machine
end

