-- ==== Sys2Proof/Laws/Clock.lean ====
section
/-! SUPPORT. What the clock can do, said once: dots change the PPU, the NMI latches and, at a frame
event, the ports; never a CPU register, work RAM, the board or the controllers. -/

namespace Sys2Proof.Machine

@[simp] theorem dotStep_ram (s : State) : (dotStep s).ram = s.ram := rfl
@[simp] theorem dotStep_board (s : State) : (dotStep s).board = s.board := rfl
@[simp] theorem dotStep_ctl (s : State) : (dotStep s).ctl = s.ctl := rfl
@[simp] theorem dotStep_ppu (s : State) : (dotStep s).ppu = s.ppu.tick s.board := rfl
theorem dotStep_ports (s : State) :
    (dotStep s).ports = if s.ppu.frameEnds then s.ports.frameEvent (s.ppu.tick s.board).framebuffer
      else s.ports := rfl
theorem dotStep_cpu (s : State) :
    (dotStep s).cpu = s.cpu.setNmi (s.ppu.tick s.board).nmiOut
      (s.cpu.nmiPending || ((s.ppu.tick s.board).nmiOut && !s.cpu.nmiPrev)) := rfl

/-- What a dot keeps, any number of dots keeps. -/
theorem runDots_induction {P : State → Prop} (h : ∀ s, P s → P (dotStep s)) :
    ∀ n s, P s → P (runDots n s) := by
  intro n
  induction n with
  | zero => intro s hs; exact hs
  | succ n ih => intro s hs; exact ih _ (h _ hs)

theorem runDots_add (m n : Nat) (s : State) : runDots (m + n) s = runDots n (runDots m s) := by
  induction m generalizing s with
  | zero => simp [runDots]
  | succ m ih => rw [Nat.succ_add]; exact ih _

@[simp] theorem runDots_ram (n : Nat) (s : State) : (runDots n s).ram = s.ram :=
  runDots_induction (P := fun t => t.ram = s.ram) (fun _ h => h) n s rfl
@[simp] theorem runDots_board (n : Nat) (s : State) : (runDots n s).board = s.board :=
  runDots_induction (P := fun t => t.board = s.board) (fun _ h => h) n s rfl
@[simp] theorem runDots_ctl (n : Nat) (s : State) : (runDots n s).ctl = s.ctl :=
  runDots_induction (P := fun t => t.ctl = s.ctl) (fun _ h => h) n s rfl
@[simp] theorem runDots_cpu_a (n : Nat) (s : State) : (runDots n s).cpu.a = s.cpu.a :=
  runDots_induction (P := fun t => t.cpu.a = s.cpu.a) (fun _ h => h) n s rfl
@[simp] theorem runDots_cpu_x (n : Nat) (s : State) : (runDots n s).cpu.x = s.cpu.x :=
  runDots_induction (P := fun t => t.cpu.x = s.cpu.x) (fun _ h => h) n s rfl
@[simp] theorem runDots_cpu_y (n : Nat) (s : State) : (runDots n s).cpu.y = s.cpu.y :=
  runDots_induction (P := fun t => t.cpu.y = s.cpu.y) (fun _ h => h) n s rfl
@[simp] theorem runDots_cpu_s (n : Nat) (s : State) : (runDots n s).cpu.s = s.cpu.s :=
  runDots_induction (P := fun t => t.cpu.s = s.cpu.s) (fun _ h => h) n s rfl
@[simp] theorem runDots_cpu_pc (n : Nat) (s : State) : (runDots n s).cpu.pc = s.cpu.pc :=
  runDots_induction (P := fun t => t.cpu.pc = s.cpu.pc) (fun _ h => h) n s rfl
@[simp] theorem runDots_cpu_c (n : Nat) (s : State) : (runDots n s).cpu.c = s.cpu.c :=
  runDots_induction (P := fun t => t.cpu.c = s.cpu.c) (fun _ h => h) n s rfl
@[simp] theorem runDots_cpu_z (n : Nat) (s : State) : (runDots n s).cpu.z = s.cpu.z :=
  runDots_induction (P := fun t => t.cpu.z = s.cpu.z) (fun _ h => h) n s rfl
@[simp] theorem runDots_cpu_i (n : Nat) (s : State) : (runDots n s).cpu.i = s.cpu.i :=
  runDots_induction (P := fun t => t.cpu.i = s.cpu.i) (fun _ h => h) n s rfl
@[simp] theorem runDots_cpu_d (n : Nat) (s : State) : (runDots n s).cpu.d = s.cpu.d :=
  runDots_induction (P := fun t => t.cpu.d = s.cpu.d) (fun _ h => h) n s rfl
@[simp] theorem runDots_cpu_v (n : Nat) (s : State) : (runDots n s).cpu.v = s.cpu.v :=
  runDots_induction (P := fun t => t.cpu.v = s.cpu.v) (fun _ h => h) n s rfl
@[simp] theorem runDots_cpu_n (n : Nat) (s : State) : (runDots n s).cpu.n = s.cpu.n :=
  runDots_induction (P := fun t => t.cpu.n = s.cpu.n) (fun _ h => h) n s rfl
@[simp] theorem runDots_cpu_resetPending (n : Nat) (s : State) : (runDots n s).cpu.resetPending = s.cpu.resetPending :=
  runDots_induction (P := fun t => t.cpu.resetPending = s.cpu.resetPending) (fun _ h => h) n s rfl
@[simp] theorem runDots_cpu_halted (n : Nat) (s : State) : (runDots n s).cpu.halted = s.cpu.halted :=
  runDots_induction (P := fun t => t.cpu.halted = s.cpu.halted) (fun _ h => h) n s rfl
@[simp] theorem runDots_cpu_cyc (n : Nat) (s : State) : (runDots n s).cpu.cyc = s.cpu.cyc :=
  runDots_induction (P := fun t => t.cpu.cyc = s.cpu.cyc) (fun _ h => h) n s rfl
@[simp] theorem runDots_cpu_cycles (n : Nat) (s : State) : (runDots n s).cpu.cycles = s.cpu.cycles :=
  runDots_induction (P := fun t => t.cpu.cycles = s.cpu.cycles) (fun _ h => h) n s rfl

@[simp] theorem clock_ram (s : State) : (clock s).ram = s.ram := by simp [clock]
@[simp] theorem clock_board (s : State) : (clock s).board = s.board := by simp [clock]
@[simp] theorem clock_ctl (s : State) : (clock s).ctl = s.ctl := by simp [clock]
@[simp] theorem clock_cpu_cyc (s : State) : (clock s).cpu.cyc = s.cpu.cyc + s.cpu.cycles := by
  simp [clock]
@[simp] theorem clock_cpu_a (s : State) : (clock s).cpu.a = s.cpu.a := by simp [clock]
@[simp] theorem clock_cpu_x (s : State) : (clock s).cpu.x = s.cpu.x := by simp [clock]
@[simp] theorem clock_cpu_y (s : State) : (clock s).cpu.y = s.cpu.y := by simp [clock]
@[simp] theorem clock_cpu_s (s : State) : (clock s).cpu.s = s.cpu.s := by simp [clock]
@[simp] theorem clock_cpu_pc (s : State) : (clock s).cpu.pc = s.cpu.pc := by simp [clock]
@[simp] theorem clock_cpu_c (s : State) : (clock s).cpu.c = s.cpu.c := by simp [clock]
@[simp] theorem clock_cpu_z (s : State) : (clock s).cpu.z = s.cpu.z := by simp [clock]
@[simp] theorem clock_cpu_i (s : State) : (clock s).cpu.i = s.cpu.i := by simp [clock]
@[simp] theorem clock_cpu_d (s : State) : (clock s).cpu.d = s.cpu.d := by simp [clock]
@[simp] theorem clock_cpu_v (s : State) : (clock s).cpu.v = s.cpu.v := by simp [clock]
@[simp] theorem clock_cpu_n (s : State) : (clock s).cpu.n = s.cpu.n := by simp [clock]
@[simp] theorem clock_cpu_resetPending (s : State) : (clock s).cpu.resetPending = s.cpu.resetPending := by simp [clock]
@[simp] theorem clock_cpu_halted (s : State) : (clock s).cpu.halted = s.cpu.halted := by simp [clock]
@[simp] theorem clock_cpu_cycles (s : State) : (clock s).cpu.cycles = s.cpu.cycles := by simp [clock]

/-- A relation that every dot keeps, and that banking the cycles keeps, is kept by the clock. -/
theorem clock_induction {P : State → Prop} (hbank : ∀ s, P s → P (s.mapCpu Cpu.bank))
    (hdot : ∀ s, P s → P (dotStep s)) (s : State) (hs : P s) : P (clock s) :=
  runDots_induction hdot _ _ (hbank _ hs)

end Sys2Proof.Machine
end

