-- ==== Sys2Proof/Laws/Decode.lean ====
section
/-! SUPPORT. The byte and word helpers of the decoder, and what `decode` does with a row it finds. -/

namespace Sys2Proof

@[simp] theorem loByte_abs16 (lo hi : Byte) : loByte (abs16 lo hi) = lo := by
  unfold loByte abs16; exact BitVec.setWidth_append_eq_right

@[simp] theorem hiByte_abs16 (lo hi : Byte) : hiByte (abs16 lo hi) = hi := by
  apply BitVec.eq_of_getLsbD_eq
  intro i hi'
  simp only [hiByte, abs16, BitVec.getLsbD_setWidth, BitVec.getLsbD_ushiftRight, BitVec.getLsbD_append]
  simp [hi']

@[simp] theorem abs16_bytes (w : Addr) : abs16 (loByte w) (hiByte w) = w := by
  apply BitVec.eq_of_getLsbD_eq
  intro i hi'
  simp only [hiByte, loByte, abs16, BitVec.getLsbD_setWidth, BitVec.getLsbD_ushiftRight, BitVec.getLsbD_append]
  by_cases h : i < 8
  · simp [h]
  · simp [h, show i - 8 < 8 by omega, show 8 + (i - 8) = i by omega]

theorem abs16_toNat (lo hi : Byte) : (abs16 lo hi).toNat = lo.toNat + 256 * hi.toNat := by
  have h := lo.isLt
  rw [abs16, BitVec.toNat_append, Nat.shiftLeft_eq, Nat.mul_comm, ← Nat.two_pow_add_eq_or_of_lt h]
  omega

/-- A displacement in range survives its byte. -/
theorem toInt_ofInt_disp {d : Int} (h : dispOk d = true) : (BitVec.ofInt 8 d).toInt = d := by
  simp only [dispOk, Bool.and_eq_true, decide_eq_true_eq] at h
  rw [BitVec.toInt_ofInt]
  apply Int.bmod_eq_of_le <;> omega

/-- The byte of a byte's displacement is the byte. -/
@[simp] theorem ofInt_toInt_disp (b : Byte) : BitVec.ofInt 8 b.toInt = b := BitVec.ofInt_toInt

/-- A byte's displacement is in range. -/
theorem dispOk_toInt (b : Byte) : dispOk b.toInt = true := by
  have h1 := BitVec.toInt_lt (x := b)
  have h2 := BitVec.le_toInt (x := b)
  simp only [dispOk, Bool.and_eq_true, decide_eq_true_eq]
  omega

/-- DECODE, once: an undefined opcode is rejected by name. -/
theorem decode_undefined {op : Byte} (h : rowOf op = none) (bs : List Byte) :
    decode (op :: bs) = .error (.undefinedOpcode op) := by simp [decode, h]

/-- A row with no operand. -/
theorem decode_row0 {op : Byte} {r : OpRow} (h : rowOf op = some r) (h0 : r.mode.operandBytes = 0)
    (rest : List Byte) : decode (op :: rest) = .ok (r.make 0 0, rest) := by simp [decode, h, h0]

/-- A row with one operand byte. -/
theorem decode_row1 {op : Byte} {r : OpRow} (h : rowOf op = some r) (h1 : r.mode.operandBytes = 1)
    (b : Byte) (rest : List Byte) : decode (op :: b :: rest) = .ok (r.make b 0, rest) := by
  simp [decode, h, h1]

/-- A row with two operand bytes, low byte first. -/
theorem decode_row2 {op : Byte} {r : OpRow} (h : rowOf op = some r) (h2 : r.mode.operandBytes = 2)
    (lo hi : Byte) (rest : List Byte) : decode (op :: lo :: hi :: rest) = .ok (r.make lo hi, rest) := by
  simp [decode, h, h2]

end Sys2Proof
end

