-- ==== Sys2Proof/Laws/Frame.lean ====
section
/-! SUPPORT. The frame of a bus access, byte by byte of every memory of the machine: a read changes no
cell, a write only the cells it stores to. -/

namespace Sys2Proof.Machine

/-- A read leaves every cell. -/
@[simp] theorem cell_afterRead (a : Addr) (s : State) (c : Cell) : (afterRead a s).cell c = s.cell c := by
  obtain ⟨a1, a2, a3, a4, a5⟩ := afterRead_ppu_memories a s
  cases c <;> simp [State.cell, a1, a2, a3, a4, a5]

/-- The CPU holds no cell. -/
@[simp] theorem cell_mapCpu (f : Cpu → Cpu) (s : State) (c : Cell) : (s.mapCpu f).cell c = s.cell c := by
  cases c <;> rfl

/-- OAM DMA stores to OAM alone. -/
theorem cell_dmaCopy (val : Byte) (c : Cell) (hc : ∀ j, j < 256 → c ≠ .oam j) :
    ∀ n i s, (dmaCopy val n i s).cell c = s.cell c := by
  intro n
  induction n with
  | zero => intro i s; rfl
  | succ n ih =>
    intro i s
    rw [dmaCopy, ih]
    obtain ⟨a1, a2, a3, a4, a5⟩ := afterRead_ppu_memories (abs16 (BitVec.ofNat 8 i) val) s
    cases c <;> simp only [dmaByte, State.cell, memRead_snd, memRead_fst, State.setPpu_ram, State.setPpu_board,
      State.setPpu_ppu, afterRead_ram, afterRead_board, a1, a2, a3, a4, a5]
    rename_i j
    refine Memory.read_write_other _ _ ?_
    rintro rfl
    exact hc _ (BitVec.isLt _) rfl

/-- A PPUDATA write stores to one cell at most. -/
theorem cell_ppuWrite (s : State) (a : PpuAddr) (v : Byte) (q : Ppu) (c : Cell)
    (h1 : q.ntRam = (ppuWriteRam s.board s.ppu a v).ntRam)
    (h2 : q.palette = (ppuWriteRam s.board s.ppu a v).palette) (h3 : q.oam = s.ppu.oam)
    (h4 : q.secOam = s.ppu.secOam) (h5 : q.framebuffer = s.ppu.framebuffer)
    (hc : some c ≠ ppuStoredCell s.board a) :
    ((s.setBoard (ppuWriteBoard s.board a v)).setPpu q).cell c = s.cell c := by
  unfold ppuStoredCell at hc
  unfold ppuWriteRam at h1 h2
  unfold ppuWriteBoard Board.ppuWrite
  by_cases hx : a.toNat < 0x2000
  · by_cases hr : s.board.cart.hasChrRam = true
    · simp only [hx, hr, if_true, ne_eq, Option.some.injEq] at hc h1 h2 ⊢
      cases c <;> simp only [State.cell, State.setPpu_ram, State.setPpu_board, State.setPpu_ppu, State.setBoard_board,
        State.setBoard_ram, h1, h2, h3, h4, h5]
      rename_i j
      exact Memory.read_write_other _ _ (fun e => hc (by rw [e]))
    · simp only [hx, hr, if_true] at h1 h2 ⊢
      cases c <;> simp [State.cell, h1, h2, h3, h4, h5]
  · by_cases hy : a.toNat < 0x3F00
    · simp only [hx, hy, if_true, if_false, ne_eq, Option.some.injEq] at hc h1 h2 ⊢
      cases c <;> simp only [State.cell, State.setPpu_ram, State.setPpu_board, State.setPpu_ppu, State.setBoard_board,
        State.setBoard_ram, h1, h2, h3, h4, h5]
      rename_i j
      exact Memory.read_write_other _ _ (fun e => hc (by rw [e]))
    · simp only [hx, hy, if_false, ne_eq, Option.some.injEq] at hc h1 h2 ⊢
      cases c <;> simp only [State.cell, State.setPpu_ram, State.setPpu_board, State.setPpu_ppu, State.setBoard_board,
        State.setBoard_ram, h1, h2, h3, h4, h5]
      rename_i j
      rw [Memory.read_write_other _ _ (fun e => hc (by rw [e]))]

/-- OAMDATA writes are discarded while rendering is in progress. -/
theorem Ppu.writeOamData_rendering (val : Byte) {p : Ppu} (h : p.renderingInProgress = true) :
    p.writeOamData val = p := by simp [Ppu.writeOamData, h]

/-- Otherwise they store and advance OAMADDR. -/
theorem Ppu.writeOamData_idle (val : Byte) {p : Ppu} (h : p.renderingInProgress = false) :
    p.writeOamData val = { p with oam := p.oam.write p.oamAddr.toNat val, oamAddr := p.oamAddr + 1 } := by
  simp [Ppu.writeOamData, h]

/-- Any other port write stores to one cell of OAM at most. -/
theorem cell_portWrite (s : State) (r : Nat) (v : Byte) (c : Cell) (h7 : r ≠ 7)
    (hc : r = 4 → s.ppu.renderingInProgress = false → c ≠ .oam s.ppu.oamAddr.toNat) :
    ((s.setBoard (s.ppu.boardAfterPortWrite s.board r v)).setPpu (s.ppu.afterPortWrite s.board r v)).cell c =
      s.cell c := by
  have hb : s.ppu.boardAfterPortWrite s.board r v = s.board := by
    unfold Ppu.boardAfterPortWrite
    split
    · exact absurd rfl h7
    · rfl
  have hm : (s.ppu.afterPortWrite s.board r v).ntRam = s.ppu.ntRam ∧
      (s.ppu.afterPortWrite s.board r v).palette = s.ppu.palette ∧
      (s.ppu.afterPortWrite s.board r v).secOam = s.ppu.secOam ∧
      (s.ppu.afterPortWrite s.board r v).framebuffer = s.ppu.framebuffer ∧
      ((s.ppu.afterPortWrite s.board r v).oam = s.ppu.oam ∨
        r = 4 ∧ s.ppu.renderingInProgress = false ∧
          (s.ppu.afterPortWrite s.board r v).oam = s.ppu.oam.write s.ppu.oamAddr.toNat v) := by
    unfold Ppu.afterPortWrite
    split
    · exact ⟨rfl, rfl, rfl, rfl, .inl rfl⟩
    · exact ⟨rfl, rfl, rfl, rfl, .inl rfl⟩
    · exact ⟨rfl, rfl, rfl, rfl, .inl rfl⟩
    · have e : ({ s.ppu with ioLatch := v } : Ppu).renderingInProgress = s.ppu.renderingInProgress := rfl
      by_cases hr : s.ppu.renderingInProgress = true
      · rw [Ppu.writeOamData_rendering v (p := { s.ppu with ioLatch := v }) (e.trans hr)]
        exact ⟨rfl, rfl, rfl, rfl, .inl rfl⟩
      · rw [Ppu.writeOamData_idle v (p := { s.ppu with ioLatch := v }) (e.trans (by simpa using hr))]
        exact ⟨rfl, rfl, rfl, rfl, .inr ⟨rfl, by simpa using hr, rfl⟩⟩
    · unfold Ppu.writeScroll
      dsimp only
      split <;> exact ⟨rfl, rfl, rfl, rfl, .inl rfl⟩
    · unfold Ppu.writeAddr
      dsimp only
      split <;> exact ⟨rfl, rfl, rfl, rfl, .inl rfl⟩
    · exact absurd rfl h7
    · exact ⟨rfl, rfl, rfl, rfl, .inl rfl⟩
  obtain ⟨h1, h2, h3, h4, h5⟩ := hm
  rw [hb]
  rcases h5 with h5 | ⟨hr, hp, h5⟩
  · cases c <;> simp [State.cell, h1, h2, h3, h4, h5]
  · have hc := hc hr hp
    cases c <;> simp only [State.cell, State.setPpu_ram, State.setPpu_board, State.setPpu_ppu, State.setBoard_board,
      State.setBoard_ram, h1, h2, h3, h4, h5]
    rename_i j
    exact Memory.read_write_other _ _ (fun e => hc (by rw [e]))

/-- A cartridge write stores to PRG-RAM at most. -/
theorem cell_cpuWrite (s : State) (a : Addr) (v : Byte) (c : Cell)
    (hc : ¬ (s.board.cart.mapper = .mmc1 ∧ 0x6000 ≤ a.toNat ∧ a.toNat < 0x8000 ∧ c = .prgRam (a.toNat - 0x6000))) :
    (s.setBoard (s.board.cpuWrite a v)).cell c = s.cell c := by
  unfold Board.cpuWrite
  split
  · cases c <;> rfl
  · rename_i hm
    split
    · cases c <;> rfl
    split
    · cases c <;> simp only [State.cell, State.setBoard_board, State.setBoard_ram, State.setBoard_ppu]
      rename_i j
      exact Memory.read_write_other _ _ (fun e => hc ⟨hm, by omega, by omega, by rw [e]⟩)
    · cases c <;> rfl

/-- THE FRAME OF A WRITE: every cell it does not store to is unchanged. -/
theorem cell_memWrite (a : Addr) (v : Byte) (s : State) (c : Cell) (h : ¬ storesTo a s c) :
    (memWrite a v s).cell c = s.cell c := by
  unfold storesTo at h
  rcases memWrite_cases a v s with ⟨h1, e⟩ | ⟨h1, h2, e⟩ | ⟨h1, e⟩ | ⟨h1, e⟩ | ⟨_, _, _, _, e⟩ | ⟨h1, e⟩ <;> rw [e]
  · rw [if_pos h1] at h
    cases c <;> simp only [State.cell, State.setRam_ram, State.setRam_ppu, State.setRam_board]
    rename_i j
    exact Memory.read_write_other _ _ (fun e => h (by rw [e]))
  · rw [if_neg (by omega), if_pos h2, not_or] at h
    rw [observeNmi, cell_mapCpu]
    by_cases h7 : portOf a = 7
    · rw [h7]
      have e : ∀ b p a, (ppuWriteRam b { p with ioLatch := v } a v).ntRam = (ppuWriteRam b p a v).ntRam ∧
          (ppuWriteRam b { p with ioLatch := v } a v).palette = (ppuWriteRam b p a v).palette ∧
          (ppuWriteRam b { p with ioLatch := v } a v).oam = p.oam ∧
          (ppuWriteRam b { p with ioLatch := v } a v).secOam = p.secOam ∧
          (ppuWriteRam b { p with ioLatch := v } a v).framebuffer = p.framebuffer := by
        intro b p a
        unfold ppuWriteRam
        split
        · exact ⟨rfl, rfl, rfl, rfl, rfl⟩
        split <;> exact ⟨rfl, rfl, rfl, rfl, rfl⟩
      obtain ⟨e1, e2, e3, e4, e5⟩ := e s.board s.ppu s.ppu.busAddr
      exact cell_ppuWrite s s.ppu.busAddr v (s.ppu.afterPortWrite s.board 7 v) c e1 e2 e3 e4 e5
        (fun e => h.2 ⟨h7, e⟩)
    · exact cell_portWrite s (portOf a) v c h7 (fun h4 hr hc => h.1 ⟨h4, hr, hc⟩)
  · subst h1
    rw [if_neg (by decide), if_neg (by decide), if_pos rfl] at h
    rw [oamDma, cell_mapCpu]
    exact cell_dmaCopy v c (fun j hj e => h ⟨j, e, hj⟩) 256 0 s
  · cases c <;> rfl
  · have h2 : a ≠ 0x4014#16 := by rintro rfl; simp at h1
    rw [if_neg (by omega), if_neg (by omega), if_neg h2] at h
    exact cell_cpuWrite s a v c h

end Sys2Proof.Machine
end

