-- ==== Sys2Proof/Laws/Operands.lean ====
section
/-! SUPPORT. What each shape of instruction of Operands.lean does to the CPU, to the cells of memory, to
the board and to the ports, once. -/

namespace Sys2Proof.Machine

/-! ## Page crossing -/

@[simp] theorem crossed_zp (b : Byte) (s : State) : (AddrMode.zp b).crossed s = false := bne_self_eq_false _
@[simp] theorem crossed_zpx (b : Byte) (s : State) : (AddrMode.zpx b).crossed s = false := bne_self_eq_false _
@[simp] theorem crossed_zpy (b : Byte) (s : State) : (AddrMode.zpy b).crossed s = false := bne_self_eq_false _
@[simp] theorem crossed_abs (w : Addr) (s : State) : (AddrMode.abs w).crossed s = false := bne_self_eq_false _
@[simp] theorem crossed_izx (b : Byte) (s : State) : (AddrMode.izx b).crossed s = false := bne_self_eq_false _

/-- Setting the tally does not move an effective address. -/
@[simp] theorem ea_start (m : AddrMode) (k : Nat) (s : State) : m.ea (s.start k) = m.ea s := by
  cases m <;> rfl

/-! ## The shapes -/

@[simp] theorem start_cpu (k : Nat) (s : State) : (s.start k).cpu = s.cpu.setCycles k := rfl
@[simp] theorem start_ram (k : Nat) (s : State) : (s.start k).ram = s.ram := rfl
@[simp] theorem start_ppu (k : Nat) (s : State) : (s.start k).ppu = s.ppu := rfl
@[simp] theorem start_board (k : Nat) (s : State) : (s.start k).board = s.board := rfl
@[simp] theorem start_ctl (k : Nat) (s : State) : (s.start k).ctl = s.ctl := rfl
@[simp] theorem start_ports (k : Nat) (s : State) : (s.start k).ports = s.ports := rfl
@[simp] theorem start_cell (k : Nat) (s : State) (c : Cell) : (s.start k).cell c = s.cell c := cell_mapCpu _ s c

/-- A penalty is one cycle and nothing else. -/
@[simp] theorem penalty_cpu (b : Bool) (s : State) :
    (s.penalty b).cpu = s.cpu.addCycles (if b then 1 else 0) := by cases b <;> rfl
@[simp] theorem penalty_board (b : Bool) (s : State) : (s.penalty b).board = s.board := by cases b <;> rfl
@[simp] theorem penalty_ports (b : Bool) (s : State) : (s.penalty b).ports = s.ports := by cases b <;> rfl
@[simp] theorem penalty_ram (b : Bool) (s : State) : (s.penalty b).ram = s.ram := by cases b <;> rfl
@[simp] theorem penalty_cell (b : Bool) (s : State) (c : Cell) : (s.penalty b).cell c = s.cell c := by
  cases b
  · rfl
  · exact cell_mapCpu _ s c

@[simp] theorem onCpu_cpu (k : Nat) (f : Cpu → Cpu) (s : State) :
    (onCpu k f s).cpu = f (s.cpu.setCycles k) := rfl
@[simp] theorem onCpu_board (k : Nat) (f : Cpu → Cpu) (s : State) : (onCpu k f s).board = s.board := rfl
@[simp] theorem onCpu_ports (k : Nat) (f : Cpu → Cpu) (s : State) : (onCpu k f s).ports = s.ports := rfl
@[simp] theorem onCpu_cell (k : Nat) (f : Cpu → Cpu) (s : State) (c : Cell) :
    (onCpu k f s).cell c = s.cell c := by simp [onCpu]

@[simp] theorem readImm_cpu (k : Nat) (b : Byte) (f : Byte → Cpu → Cpu) (s : State) :
    (readImm k b f s).cpu = f b (s.cpu.setCycles k) := rfl
@[simp] theorem readImm_board (k : Nat) (b : Byte) (f : Byte → Cpu → Cpu) (s : State) :
    (readImm k b f s).board = s.board := rfl
@[simp] theorem readImm_ports (k : Nat) (b : Byte) (f : Byte → Cpu → Cpu) (s : State) :
    (readImm k b f s).ports = s.ports := rfl
@[simp] theorem readImm_cell (k : Nat) (b : Byte) (f : Byte → Cpu → Cpu) (s : State) (c : Cell) :
    (readImm k b f s).cell c = s.cell c := onCpu_cell _ _ s c

/-- A READ, once: the effect is applied to the CPU the read leaves, then the penalty. -/
@[simp] theorem readMem_cpu (k : Nat) (m : AddrMode) (f : Byte → Cpu → Cpu) (s : State) :
    (readMem k m f s).cpu =
      (f (busByte (m.ea s) s) ((afterRead (m.ea s) s).cpu.setCycles k)).addCycles
        (if m.crossed s then 1 else 0) := by
  simp [readMem]
@[simp] theorem readMem_board (k : Nat) (m : AddrMode) (f : Byte → Cpu → Cpu) (s : State) :
    (readMem k m f s).board = s.board := by simp [readMem]
@[simp] theorem readMem_ports (k : Nat) (m : AddrMode) (f : Byte → Cpu → Cpu) (s : State) :
    (readMem k m f s).ports = s.ports := by simp [readMem]
@[simp] theorem readMem_cell (k : Nat) (m : AddrMode) (f : Byte → Cpu → Cpu) (s : State) (c : Cell) :
    (readMem k m f s).cell c = s.cell c := by simp [readMem]

@[simp] theorem storeMem_ports (k : Nat) (m : AddrMode) (val : Cpu → Byte) (s : State) :
    (storeMem k m val s).ports = s.ports := by simp [storeMem]

/-- A READ-MODIFY-WRITE, once. -/
@[simp] theorem modifyMem_cpu (k : Nat) (m : AddrMode) (res : Bool → Byte → Byte)
    (fl : Byte → Byte → Cpu → Cpu) (s : State) :
    (modifyMem k m res fl s).cpu =
      fl (busByte (m.ea s) s) (res s.cpu.c (busByte (m.ea s) s))
        (memWrite (m.ea s) (res s.cpu.c (busByte (m.ea s) s)) ((afterRead (m.ea s) s).start k)).cpu := by
  simp [modifyMem]
@[simp] theorem modifyMem_ports (k : Nat) (m : AddrMode) (res : Bool → Byte → Byte)
    (fl : Byte → Byte → Cpu → Cpu) (s : State) : (modifyMem k m res fl s).ports = s.ports := by
  simp [modifyMem]

@[simp] theorem modifyAcc_cpu (k : Nat) (res : Bool → Byte → Byte) (fl : Byte → Byte → Cpu → Cpu) (s : State) :
    (modifyAcc k res fl s).cpu =
      fl s.cpu.a (res s.cpu.c s.cpu.a) ((s.cpu.setCycles k).setA (res s.cpu.c s.cpu.a)) := rfl
@[simp] theorem modifyAcc_board (k : Nat) (res : Bool → Byte → Byte) (fl : Byte → Byte → Cpu → Cpu) (s : State) :
    (modifyAcc k res fl s).board = s.board := rfl
@[simp] theorem modifyAcc_ports (k : Nat) (res : Bool → Byte → Byte) (fl : Byte → Byte → Cpu → Cpu) (s : State) :
    (modifyAcc k res fl s).ports = s.ports := rfl
@[simp] theorem modifyAcc_cell (k : Nat) (res : Bool → Byte → Byte) (fl : Byte → Byte → Cpu → Cpu) (s : State)
    (c : Cell) : (modifyAcc k res fl s).cell c = s.cell c := by simp [modifyAcc]

/-- A BRANCH, once: the CPU's PC and tally, nothing else. -/
theorem branch_eq (cond : Cpu → Bool) (d : Int) (s : State) :
    branch cond d s =
      if cond s.cpu then
        s.mapCpu (fun c => (c.setPc (branchTarget d s.cpu)).setCycles
          (if hiByte (branchTarget d s.cpu) != hiByte s.cpu.pc then 4 else 3))
      else s.start 2 := by
  unfold branch
  split
  · cases hiByte (branchTarget d s.cpu) != hiByte s.cpu.pc <;> rfl
  · rfl
theorem branch_cpu (cond : Cpu → Bool) (d : Int) (s : State) :
    (branch cond d s).cpu =
      (s.cpu.setPc (if cond s.cpu then branchTarget d s.cpu else s.cpu.pc)).setCycles
        (if cond s.cpu then (if hiByte (branchTarget d s.cpu) != hiByte s.cpu.pc then 4 else 3) else 2) := by
  rw [branch_eq]; split <;> rfl
@[simp] theorem branch_board (cond : Cpu → Bool) (d : Int) (s : State) : (branch cond d s).board = s.board := by
  rw [branch_eq]; split <;> rfl
@[simp] theorem branch_ports (cond : Cpu → Bool) (d : Int) (s : State) : (branch cond d s).ports = s.ports := by
  rw [branch_eq]; split <;> rfl
@[simp] theorem branch_cell (cond : Cpu → Bool) (d : Int) (s : State) (c : Cell) :
    (branch cond d s).cell c = s.cell c := by
  rw [branch_eq]; split <;> simp

/-! ## What no write touches -/

/-- The cartridge image is changed by no CPU write (R344). -/
theorem Board.cpuWrite_cart (b : Board) (a : Addr) (v : Byte) : (b.cpuWrite a v).cart = b.cart := by
  unfold Board.cpuWrite
  split
  · rfl
  · split
    · rfl
    · split <;> rfl

/-- Nor by a PPU port write. -/
theorem Ppu.boardAfterPortWrite_cart (b : Board) (r : Nat) (v : Byte) (p : Ppu) :
    (p.boardAfterPortWrite b r v).cart = b.cart := by
  unfold Ppu.boardAfterPortWrite
  split
  · unfold ppuWriteBoard Board.ppuWrite
    split
    · split <;> rfl
    · rfl
  · rfl

@[simp] theorem memWrite_cart (a : Addr) (v : Byte) (s : State) : (memWrite a v s).board.cart = s.board.cart := by
  rcases memWrite_cases a v s with ⟨_, h⟩ | ⟨_, _, h⟩ | ⟨_, h⟩ | ⟨_, h⟩ | ⟨_, _, _, _, h⟩ | ⟨_, h⟩ <;>
    simp [h, oamDma, dmaCopy_board, Board.cpuWrite_cart, Ppu.boardAfterPortWrite_cart]

@[simp] theorem modifyMem_cart (k : Nat) (m : AddrMode) (res : Bool → Byte → Byte)
    (fl : Byte → Byte → Cpu → Cpu) (s : State) : (modifyMem k m res fl s).board.cart = s.board.cart := by
  simp [modifyMem]

/-- The tally after a write: as it was, or with a stall. -/
theorem memWrite_cycles_cases (a : Addr) (v : Byte) (s : State) :
    (memWrite a v s).cpu.cycles = s.cpu.cycles ∨ (memWrite a v s).cpu.cycles = s.cpu.cycles + 513 ∨
      (memWrite a v s).cpu.cycles = s.cpu.cycles + 514 := by
  by_cases h : a = 0x4014#16
  · subst h
    rw [memWrite_dma_cycles]
    split
    · exact .inr (.inr rfl)
    · exact .inr (.inl rfl)
  · exact .inl (memWrite_cpu_cycles h v s)

end Sys2Proof.Machine
end

