-- ==== Sys2Proof/Laws/PerInstr.lean ====
section
/-! SUPPORT. A statement made of every instruction as syntax, one lemma a constructor. -/

namespace Sys2Proof.Laws.Encoded

/-- The first byte of the instruction's encoding is an opcode of the table, and the encoding is as long
as that row's addressing mode says (30_encoding.md R100). -/
def Statement (i : Instr) : Prop :=
  ∃ r, rowOf ((encode i).headD 0) = some r ∧ (encode i).length = 1 + r.mode.operandBytes

theorem ldaIzx (b : Byte) : Statement (.ldaIzx b) := ⟨_, rfl, rfl⟩
theorem ldaZp (b : Byte) : Statement (.ldaZp b) := ⟨_, rfl, rfl⟩
theorem ldaImm (b : Byte) : Statement (.ldaImm b) := ⟨_, rfl, rfl⟩
theorem ldaAbs (w : Addr) : Statement (.ldaAbs w) := ⟨_, rfl, rfl⟩
theorem ldaIzy (b : Byte) : Statement (.ldaIzy b) := ⟨_, rfl, rfl⟩
theorem ldaZpx (b : Byte) : Statement (.ldaZpx b) := ⟨_, rfl, rfl⟩
theorem ldaAby (w : Addr) : Statement (.ldaAby w) := ⟨_, rfl, rfl⟩
theorem ldaAbx (w : Addr) : Statement (.ldaAbx w) := ⟨_, rfl, rfl⟩
theorem ldxImm (b : Byte) : Statement (.ldxImm b) := ⟨_, rfl, rfl⟩
theorem ldxZp (b : Byte) : Statement (.ldxZp b) := ⟨_, rfl, rfl⟩
theorem ldxAbs (w : Addr) : Statement (.ldxAbs w) := ⟨_, rfl, rfl⟩
theorem ldxZpy (b : Byte) : Statement (.ldxZpy b) := ⟨_, rfl, rfl⟩
theorem ldxAby (w : Addr) : Statement (.ldxAby w) := ⟨_, rfl, rfl⟩
theorem ldyImm (b : Byte) : Statement (.ldyImm b) := ⟨_, rfl, rfl⟩
theorem ldyZp (b : Byte) : Statement (.ldyZp b) := ⟨_, rfl, rfl⟩
theorem ldyAbs (w : Addr) : Statement (.ldyAbs w) := ⟨_, rfl, rfl⟩
theorem ldyZpx (b : Byte) : Statement (.ldyZpx b) := ⟨_, rfl, rfl⟩
theorem ldyAbx (w : Addr) : Statement (.ldyAbx w) := ⟨_, rfl, rfl⟩
theorem staIzx (b : Byte) : Statement (.staIzx b) := ⟨_, rfl, rfl⟩
theorem staZp (b : Byte) : Statement (.staZp b) := ⟨_, rfl, rfl⟩
theorem staAbs (w : Addr) : Statement (.staAbs w) := ⟨_, rfl, rfl⟩
theorem staIzy (b : Byte) : Statement (.staIzy b) := ⟨_, rfl, rfl⟩
theorem staZpx (b : Byte) : Statement (.staZpx b) := ⟨_, rfl, rfl⟩
theorem staAby (w : Addr) : Statement (.staAby w) := ⟨_, rfl, rfl⟩
theorem staAbx (w : Addr) : Statement (.staAbx w) := ⟨_, rfl, rfl⟩
theorem stxZp (b : Byte) : Statement (.stxZp b) := ⟨_, rfl, rfl⟩
theorem stxAbs (w : Addr) : Statement (.stxAbs w) := ⟨_, rfl, rfl⟩
theorem stxZpy (b : Byte) : Statement (.stxZpy b) := ⟨_, rfl, rfl⟩
theorem styZp (b : Byte) : Statement (.styZp b) := ⟨_, rfl, rfl⟩
theorem styAbs (w : Addr) : Statement (.styAbs w) := ⟨_, rfl, rfl⟩
theorem styZpx (b : Byte) : Statement (.styZpx b) := ⟨_, rfl, rfl⟩
theorem tax : Statement .tax := ⟨_, rfl, rfl⟩
theorem tay : Statement .tay := ⟨_, rfl, rfl⟩
theorem txa : Statement .txa := ⟨_, rfl, rfl⟩
theorem tya : Statement .tya := ⟨_, rfl, rfl⟩
theorem tsx : Statement .tsx := ⟨_, rfl, rfl⟩
theorem txs : Statement .txs := ⟨_, rfl, rfl⟩
theorem pha : Statement .pha := ⟨_, rfl, rfl⟩
theorem php : Statement .php := ⟨_, rfl, rfl⟩
theorem pla : Statement .pla := ⟨_, rfl, rfl⟩
theorem plp : Statement .plp := ⟨_, rfl, rfl⟩
theorem adcIzx (b : Byte) : Statement (.adcIzx b) := ⟨_, rfl, rfl⟩
theorem adcZp (b : Byte) : Statement (.adcZp b) := ⟨_, rfl, rfl⟩
theorem adcImm (b : Byte) : Statement (.adcImm b) := ⟨_, rfl, rfl⟩
theorem adcAbs (w : Addr) : Statement (.adcAbs w) := ⟨_, rfl, rfl⟩
theorem adcIzy (b : Byte) : Statement (.adcIzy b) := ⟨_, rfl, rfl⟩
theorem adcZpx (b : Byte) : Statement (.adcZpx b) := ⟨_, rfl, rfl⟩
theorem adcAby (w : Addr) : Statement (.adcAby w) := ⟨_, rfl, rfl⟩
theorem adcAbx (w : Addr) : Statement (.adcAbx w) := ⟨_, rfl, rfl⟩
theorem sbcIzx (b : Byte) : Statement (.sbcIzx b) := ⟨_, rfl, rfl⟩
theorem sbcZp (b : Byte) : Statement (.sbcZp b) := ⟨_, rfl, rfl⟩
theorem sbcImm (b : Byte) : Statement (.sbcImm b) := ⟨_, rfl, rfl⟩
theorem sbcAbs (w : Addr) : Statement (.sbcAbs w) := ⟨_, rfl, rfl⟩
theorem sbcIzy (b : Byte) : Statement (.sbcIzy b) := ⟨_, rfl, rfl⟩
theorem sbcZpx (b : Byte) : Statement (.sbcZpx b) := ⟨_, rfl, rfl⟩
theorem sbcAby (w : Addr) : Statement (.sbcAby w) := ⟨_, rfl, rfl⟩
theorem sbcAbx (w : Addr) : Statement (.sbcAbx w) := ⟨_, rfl, rfl⟩
theorem andIzx (b : Byte) : Statement (.andIzx b) := ⟨_, rfl, rfl⟩
theorem andZp (b : Byte) : Statement (.andZp b) := ⟨_, rfl, rfl⟩
theorem andImm (b : Byte) : Statement (.andImm b) := ⟨_, rfl, rfl⟩
theorem andAbs (w : Addr) : Statement (.andAbs w) := ⟨_, rfl, rfl⟩
theorem andIzy (b : Byte) : Statement (.andIzy b) := ⟨_, rfl, rfl⟩
theorem andZpx (b : Byte) : Statement (.andZpx b) := ⟨_, rfl, rfl⟩
theorem andAby (w : Addr) : Statement (.andAby w) := ⟨_, rfl, rfl⟩
theorem andAbx (w : Addr) : Statement (.andAbx w) := ⟨_, rfl, rfl⟩
theorem oraIzx (b : Byte) : Statement (.oraIzx b) := ⟨_, rfl, rfl⟩
theorem oraZp (b : Byte) : Statement (.oraZp b) := ⟨_, rfl, rfl⟩
theorem oraImm (b : Byte) : Statement (.oraImm b) := ⟨_, rfl, rfl⟩
theorem oraAbs (w : Addr) : Statement (.oraAbs w) := ⟨_, rfl, rfl⟩
theorem oraIzy (b : Byte) : Statement (.oraIzy b) := ⟨_, rfl, rfl⟩
theorem oraZpx (b : Byte) : Statement (.oraZpx b) := ⟨_, rfl, rfl⟩
theorem oraAby (w : Addr) : Statement (.oraAby w) := ⟨_, rfl, rfl⟩
theorem oraAbx (w : Addr) : Statement (.oraAbx w) := ⟨_, rfl, rfl⟩
theorem eorIzx (b : Byte) : Statement (.eorIzx b) := ⟨_, rfl, rfl⟩
theorem eorZp (b : Byte) : Statement (.eorZp b) := ⟨_, rfl, rfl⟩
theorem eorImm (b : Byte) : Statement (.eorImm b) := ⟨_, rfl, rfl⟩
theorem eorAbs (w : Addr) : Statement (.eorAbs w) := ⟨_, rfl, rfl⟩
theorem eorIzy (b : Byte) : Statement (.eorIzy b) := ⟨_, rfl, rfl⟩
theorem eorZpx (b : Byte) : Statement (.eorZpx b) := ⟨_, rfl, rfl⟩
theorem eorAby (w : Addr) : Statement (.eorAby w) := ⟨_, rfl, rfl⟩
theorem eorAbx (w : Addr) : Statement (.eorAbx w) := ⟨_, rfl, rfl⟩
theorem cmpIzx (b : Byte) : Statement (.cmpIzx b) := ⟨_, rfl, rfl⟩
theorem cmpZp (b : Byte) : Statement (.cmpZp b) := ⟨_, rfl, rfl⟩
theorem cmpImm (b : Byte) : Statement (.cmpImm b) := ⟨_, rfl, rfl⟩
theorem cmpAbs (w : Addr) : Statement (.cmpAbs w) := ⟨_, rfl, rfl⟩
theorem cmpIzy (b : Byte) : Statement (.cmpIzy b) := ⟨_, rfl, rfl⟩
theorem cmpZpx (b : Byte) : Statement (.cmpZpx b) := ⟨_, rfl, rfl⟩
theorem cmpAby (w : Addr) : Statement (.cmpAby w) := ⟨_, rfl, rfl⟩
theorem cmpAbx (w : Addr) : Statement (.cmpAbx w) := ⟨_, rfl, rfl⟩
theorem cpxImm (b : Byte) : Statement (.cpxImm b) := ⟨_, rfl, rfl⟩
theorem cpxZp (b : Byte) : Statement (.cpxZp b) := ⟨_, rfl, rfl⟩
theorem cpxAbs (w : Addr) : Statement (.cpxAbs w) := ⟨_, rfl, rfl⟩
theorem cpyImm (b : Byte) : Statement (.cpyImm b) := ⟨_, rfl, rfl⟩
theorem cpyZp (b : Byte) : Statement (.cpyZp b) := ⟨_, rfl, rfl⟩
theorem cpyAbs (w : Addr) : Statement (.cpyAbs w) := ⟨_, rfl, rfl⟩
theorem bitZp (b : Byte) : Statement (.bitZp b) := ⟨_, rfl, rfl⟩
theorem bitAbs (w : Addr) : Statement (.bitAbs w) := ⟨_, rfl, rfl⟩
theorem incZp (b : Byte) : Statement (.incZp b) := ⟨_, rfl, rfl⟩
theorem incAbs (w : Addr) : Statement (.incAbs w) := ⟨_, rfl, rfl⟩
theorem incZpx (b : Byte) : Statement (.incZpx b) := ⟨_, rfl, rfl⟩
theorem incAbx (w : Addr) : Statement (.incAbx w) := ⟨_, rfl, rfl⟩
theorem decZp (b : Byte) : Statement (.decZp b) := ⟨_, rfl, rfl⟩
theorem decAbs (w : Addr) : Statement (.decAbs w) := ⟨_, rfl, rfl⟩
theorem decZpx (b : Byte) : Statement (.decZpx b) := ⟨_, rfl, rfl⟩
theorem decAbx (w : Addr) : Statement (.decAbx w) := ⟨_, rfl, rfl⟩
theorem inx : Statement .inx := ⟨_, rfl, rfl⟩
theorem iny : Statement .iny := ⟨_, rfl, rfl⟩
theorem dex : Statement .dex := ⟨_, rfl, rfl⟩
theorem dey : Statement .dey := ⟨_, rfl, rfl⟩
theorem aslZp (b : Byte) : Statement (.aslZp b) := ⟨_, rfl, rfl⟩
theorem aslAcc : Statement .aslAcc := ⟨_, rfl, rfl⟩
theorem aslAbs (w : Addr) : Statement (.aslAbs w) := ⟨_, rfl, rfl⟩
theorem aslZpx (b : Byte) : Statement (.aslZpx b) := ⟨_, rfl, rfl⟩
theorem aslAbx (w : Addr) : Statement (.aslAbx w) := ⟨_, rfl, rfl⟩
theorem lsrZp (b : Byte) : Statement (.lsrZp b) := ⟨_, rfl, rfl⟩
theorem lsrAcc : Statement .lsrAcc := ⟨_, rfl, rfl⟩
theorem lsrAbs (w : Addr) : Statement (.lsrAbs w) := ⟨_, rfl, rfl⟩
theorem lsrZpx (b : Byte) : Statement (.lsrZpx b) := ⟨_, rfl, rfl⟩
theorem lsrAbx (w : Addr) : Statement (.lsrAbx w) := ⟨_, rfl, rfl⟩
theorem rolZp (b : Byte) : Statement (.rolZp b) := ⟨_, rfl, rfl⟩
theorem rolAcc : Statement .rolAcc := ⟨_, rfl, rfl⟩
theorem rolAbs (w : Addr) : Statement (.rolAbs w) := ⟨_, rfl, rfl⟩
theorem rolZpx (b : Byte) : Statement (.rolZpx b) := ⟨_, rfl, rfl⟩
theorem rolAbx (w : Addr) : Statement (.rolAbx w) := ⟨_, rfl, rfl⟩
theorem rorZp (b : Byte) : Statement (.rorZp b) := ⟨_, rfl, rfl⟩
theorem rorAcc : Statement .rorAcc := ⟨_, rfl, rfl⟩
theorem rorAbs (w : Addr) : Statement (.rorAbs w) := ⟨_, rfl, rfl⟩
theorem rorZpx (b : Byte) : Statement (.rorZpx b) := ⟨_, rfl, rfl⟩
theorem rorAbx (w : Addr) : Statement (.rorAbx w) := ⟨_, rfl, rfl⟩
theorem jmpAbs (w : Addr) : Statement (.jmpAbs w) := ⟨_, rfl, rfl⟩
theorem jmpInd (w : Addr) : Statement (.jmpInd w) := ⟨_, rfl, rfl⟩
theorem jsr (w : Addr) : Statement (.jsr w) := ⟨_, rfl, rfl⟩
theorem rts : Statement .rts := ⟨_, rfl, rfl⟩
theorem bcc (d : Int) : Statement (.bcc d) := ⟨_, rfl, rfl⟩
theorem bcs (d : Int) : Statement (.bcs d) := ⟨_, rfl, rfl⟩
theorem beq (d : Int) : Statement (.beq d) := ⟨_, rfl, rfl⟩
theorem bmi (d : Int) : Statement (.bmi d) := ⟨_, rfl, rfl⟩
theorem bne (d : Int) : Statement (.bne d) := ⟨_, rfl, rfl⟩
theorem bpl (d : Int) : Statement (.bpl d) := ⟨_, rfl, rfl⟩
theorem bvc (d : Int) : Statement (.bvc d) := ⟨_, rfl, rfl⟩
theorem bvs (d : Int) : Statement (.bvs d) := ⟨_, rfl, rfl⟩
theorem clc : Statement .clc := ⟨_, rfl, rfl⟩
theorem sec : Statement .sec := ⟨_, rfl, rfl⟩
theorem cli : Statement .cli := ⟨_, rfl, rfl⟩
theorem sei : Statement .sei := ⟨_, rfl, rfl⟩
theorem clv : Statement .clv := ⟨_, rfl, rfl⟩
theorem cld : Statement .cld := ⟨_, rfl, rfl⟩
theorem sed : Statement .sed := ⟨_, rfl, rfl⟩
theorem nop : Statement .nop := ⟨_, rfl, rfl⟩
theorem brk : Statement .brk := ⟨_, rfl, rfl⟩
theorem rti : Statement .rti := ⟨_, rfl, rfl⟩

end Sys2Proof.Laws.Encoded
end

