-- ==== Sys2Proof/Laws/Wf.lean ====
section
/-! SUPPORT. Every operation keeps the canonical form of the memories and the ranges of the counters:
one lemma an operation, for the PPU, the board and the whole state. -/

namespace Sys2Proof.Machine

/-! ## The memories at power-on -/

theorem powerOn_memories_wf (c : Cartridge) :
    (State.powerOn c).ram.wf 2048 = true ∧ (State.powerOn c).ppu.ntRam.wf 2048 = true ∧
    (State.powerOn c).ppu.palette.wf 32 = true ∧ (State.powerOn c).ppu.oam.wf 256 = true ∧
    (State.powerOn c).ppu.secOam.wf 32 = true ∧ (State.powerOn c).board.prgRam.wf 8192 = true ∧
    (State.powerOn c).board.chrRam.wf 8192 = true ∧ (State.powerOn c).ppu.framebuffer.wf = true := by
  refine ⟨rfl, rfl, rfl, rfl, rfl, rfl, rfl, rfl⟩

/-! ## Indices -/

theorem ntIndex_lt (m : Mirroring) (a : PpuAddr) : ntIndex m a < 2048 := by
  have : ntPage m (a.toNat / 1024 % 4) ≤ 1 := by unfold ntPage; cases m <;> simp <;> omega
  unfold ntIndex; omega

theorem palIndex_storage (i : BitVec 5) :
    (!(decide (16 ≤ (palIndex i).toNat) && (palIndex i).toNat % 4 == 0)) = true := by
  revert i; decide

theorem palCell_lt (a : PpuAddr) : palCell a < 32 := (palIndex _).isLt

/-! ## The PPU -/

/-- The PPU's invariant, clause by clause. -/
theorem Ppu.wf_iff (p : Ppu) : p.wf = true ↔
    p.ntRam.wf 2048 = true ∧ p.palette.wf 32 = true ∧ paletteUnmirrored p.palette = true ∧
    p.oam.wf 256 = true ∧ p.secOam.wf 32 = true ∧ p.secCount ≤ 8 ∧ p.units.length = 8 ∧
    p.scanline ≤ 261 ∧ p.dot ≤ 340 ∧ p.framebuffer.wf = true := by
  simp only [Ppu.wf, Bool.and_eq_true, decide_eq_true_eq, beq_iff_eq, and_assoc]

/-- The invariant looks at ten fields. -/
theorem Ppu.wf_congr {p q : Ppu} (h : p.wf = true) (h1 : q.ntRam = p.ntRam) (h2 : q.palette = p.palette)
    (h3 : q.oam = p.oam) (h4 : q.secOam = p.secOam) (h5 : q.secCount = p.secCount)
    (h6 : q.units = p.units) (h7 : q.scanline = p.scanline) (h8 : q.dot = p.dot)
    (h9 : q.framebuffer = p.framebuffer) : q.wf = true := by
  rw [Ppu.wf_iff] at h ⊢
  rw [h1, h2, h3, h4, h5, h6, h7, h8, h9]
  exact h

theorem paletteUnmirrored_write {m : Memory 6} (h : paletteUnmirrored m = true) (i : BitVec 5) (c : BitVec 6) :
    paletteUnmirrored (m.write (palIndex i).toNat c) = true := by
  simp only [paletteUnmirrored, List.all_eq_true] at h ⊢
  intro e he
  rcases Memory.mem_write he with rfl | he
  · exact palIndex_storage i
  · exact h e he

theorem ppuWriteRam_wf (b : Board) {p : Ppu} (a : PpuAddr) (val : Byte) (h : p.wf = true) :
    (ppuWriteRam b p a val).wf = true := by
  rw [Ppu.wf_iff] at h ⊢
  obtain ⟨h1, h2, h3, hr⟩ := h
  unfold ppuWriteRam
  split
  · exact ⟨h1, h2, h3, hr⟩
  split
  · exact ⟨Memory.wf_write _ (ntIndex_lt _ _) h1, h2, h3, hr⟩
  · exact ⟨h1, Memory.wf_write _ (palCell_lt _) h2, paletteUnmirrored_write h3 _ _, hr⟩

theorem Ppu.wf_setOam {p : Ppu} (h : p.wf = true) (i : Byte) (v : Byte) :
    { p with oam := p.oam.write i.toNat v }.wf = true := by
  rw [Ppu.wf_iff] at h ⊢
  obtain ⟨h1, h2, h3, h4, hr⟩ := h
  exact ⟨h1, h2, h3, Memory.wf_write _ i.isLt h4, hr⟩

theorem Ppu.wf_afterPortRead (b : Board) (r : Nat) {p : Ppu} (h : p.wf = true) :
    (p.afterPortRead b r).wf = true := by
  unfold Ppu.afterPortRead
  split <;> exact Ppu.wf_congr h rfl rfl rfl rfl rfl rfl rfl rfl rfl

theorem Ppu.wf_writeOamData (val : Byte) {p : Ppu} (h : p.wf = true) : (p.writeOamData val).wf = true := by
  unfold Ppu.writeOamData
  split
  · exact h
  · exact Ppu.wf_congr (Ppu.wf_setOam h p.oamAddr val) rfl rfl rfl rfl rfl rfl rfl rfl rfl

theorem Ppu.wf_writeScroll (val : Byte) {p : Ppu} (h : p.wf = true) : (p.writeScroll val).wf = true := by
  unfold Ppu.writeScroll
  split <;> exact Ppu.wf_congr h rfl rfl rfl rfl rfl rfl rfl rfl rfl

theorem Ppu.wf_writeAddr (val : Byte) {p : Ppu} (h : p.wf = true) : (p.writeAddr val).wf = true := by
  unfold Ppu.writeAddr
  split <;> exact Ppu.wf_congr h rfl rfl rfl rfl rfl rfl rfl rfl rfl

theorem Ppu.wf_afterPortWrite (b : Board) (r : Nat) (val : Byte) {p : Ppu} (h : p.wf = true) :
    (p.afterPortWrite b r val).wf = true := by
  have h' : ({ p with ioLatch := val } : Ppu).wf = true := Ppu.wf_congr h rfl rfl rfl rfl rfl rfl rfl rfl rfl
  unfold Ppu.afterPortWrite
  split
  · exact Ppu.wf_congr h' rfl rfl rfl rfl rfl rfl rfl rfl rfl
  · exact Ppu.wf_congr h' rfl rfl rfl rfl rfl rfl rfl rfl rfl
  · exact Ppu.wf_congr h' rfl rfl rfl rfl rfl rfl rfl rfl rfl
  · exact Ppu.wf_writeOamData val h'
  · exact Ppu.wf_writeScroll val h'
  · exact Ppu.wf_writeAddr val h'
  · exact Ppu.wf_congr (ppuWriteRam_wf b _ val h') rfl rfl rfl rfl rfl rfl rfl rfl rfl
  · exact h'

theorem Ppu.wf_onReset {p : Ppu} (h : p.wf = true) : p.onReset.wf = true :=
  Ppu.wf_congr h rfl rfl rfl rfl rfl rfl rfl rfl rfl

/-! ## The tick -/

theorem Ppu.wf_setPixel {p : Ppu} (h : p.wf = true) {x y : Nat} (c : BitVec 6) (hx : x < 256) (hy : y < 240) :
    { p with framebuffer := p.framebuffer.setPixel x y c }.wf = true := by
  rw [Ppu.wf_iff] at h ⊢
  obtain ⟨h1, h2, h3, h4, h5, h6, h7, h8, h9, h10⟩ := h
  exact ⟨h1, h2, h3, h4, h5, h6, h7, h8, h9, FrameBuffer.wf_setPixel c hx hy h10⟩

theorem Ppu.wf_setUnits {p : Ppu} (h : p.wf = true) {us : List SpriteUnit} (hu : us.length = p.units.length) :
    { p with units := us }.wf = true := by
  rw [Ppu.wf_iff] at h ⊢
  obtain ⟨h1, h2, h3, h4, h5, h6, h7, hr⟩ := h
  exact ⟨h1, h2, h3, h4, h5, h6, hu.trans h7, hr⟩

theorem Ppu.wf_emitPixel {p : Ppu} (h : p.wf = true) {x y : Nat} (hx : x < 256) (hy : y < 240) :
    (p.emitPixel x y).wf = true :=
  Ppu.wf_congr (Ppu.wf_setUnits (us := p.units.map SpriteUnit.advance) (Ppu.wf_setPixel h _ hx hy)
    (List.length_map ..)) rfl rfl rfl rfl rfl rfl rfl rfl rfl

theorem Ppu.wf_emitBackdrop {p : Ppu} (h : p.wf = true) {x y : Nat} (hx : x < 256) (hy : y < 240) :
    (p.emitBackdrop x y).wf = true := Ppu.wf_setPixel h _ hx hy

theorem Ppu.wf_backgroundDot (b : Board) (d : Nat) {p : Ppu} (h : p.wf = true) :
    (p.backgroundDot b d).wf = true := by
  unfold Ppu.backgroundDot
  split
  · unfold Ppu.backgroundFetch
    split <;> exact Ppu.wf_congr h rfl rfl rfl rfl rfl rfl rfl rfl rfl
  · exact h

theorem Ppu.wf_copySprites (ns : List Nat) : ∀ (k : Nat) {p : Ppu}, k + ns.length ≤ 8 → p.wf = true →
    (Ppu.copySprites ns k p).wf = true := by
  induction ns with
  | nil => intro k p _ h; exact h
  | cons n ns ih =>
    intro k p hk h
    simp only [List.length_cons] at hk
    refine ih (k + 1) (by omega) ?_
    rw [Ppu.wf_iff] at h ⊢
    obtain ⟨h1, h2, h3, h4, h5, hr⟩ := h
    exact ⟨h1, h2, h3, h4,
      Memory.wf_write _ (by omega) (Memory.wf_write _ (by omega)
        (Memory.wf_write _ (by omega) (Memory.wf_write _ (by omega) h5))), hr⟩

theorem Ppu.wf_evaluateSprites (s : Nat) {p : Ppu} (h : p.wf = true) : (p.evaluateSprites s).wf = true := by
  have hlen : ((p.spritesInRange s).take 8).length ≤ 8 := List.length_take_le ..
  have hq := Ppu.wf_copySprites ((p.spritesInRange s).take 8) 0 (by omega) h
  rw [Ppu.wf_iff] at hq ⊢
  obtain ⟨h1, h2, h3, h4, h5, -, hr⟩ := hq
  exact ⟨h1, h2, h3, h4, h5, hlen, hr⟩

theorem Ppu.wf_lineEndDot (s d : Nat) {p : Ppu} (h : p.wf = true) : (p.lineEndDot s d).wf = true := by
  unfold Ppu.lineEndDot
  split
  · exact Ppu.wf_congr h rfl rfl rfl rfl rfl rfl rfl rfl rfl
  split
  · have hq : ({ p with v := copyHorizontal p.v p.t } : Ppu).wf = true :=
      Ppu.wf_congr h rfl rfl rfl rfl rfl rfl rfl rfl rfl
    dsimp only
    split
    · exact Ppu.wf_evaluateSprites s hq
    · rw [Ppu.wf_iff] at hq ⊢
      obtain ⟨h1, h2, h3, h4, h5, -, hr⟩ := hq
      exact ⟨h1, h2, h3, h4, h5, Nat.zero_le _, hr⟩
  · exact h

theorem Ppu.wf_spriteDot (b : Board) (s d : Nat) {p : Ppu} (h : p.wf = true) : (p.spriteDot b s d).wf = true := by
  unfold Ppu.spriteDot
  split
  · have h0 : ({ p with oamAddr := 0 } : Ppu).wf = true := Ppu.wf_congr h rfl rfl rfl rfl rfl rfl rfl rfl rfl
    unfold Ppu.spriteFetch
    dsimp only
    split
    · split
      · exact Ppu.wf_congr h0 rfl rfl rfl rfl rfl rfl rfl rfl rfl
      · exact h0
    · split <;> split
      all_goals
        first
        | exact Ppu.wf_congr (Ppu.wf_setUnits h0 (us := _) (List.length_set ..)) rfl rfl rfl rfl rfl rfl rfl rfl rfl
    · exact h0
  · exact h

theorem Ppu.wf_verticalDot (s d : Nat) {p : Ppu} (h : p.wf = true) : (p.verticalDot s d).wf = true := by
  unfold Ppu.verticalDot
  split
  · exact Ppu.wf_congr h rfl rfl rfl rfl rfl rfl rfl rfl rfl
  · exact h

theorem visibleLine_lt {s : Nat} (h : visibleLine s = true) : s < 240 := by
  simp only [visibleLine, decide_eq_true_eq] at h; omega

theorem Ppu.wf_dotActions (b : Board) (s d : Nat) {p : Ppu} (h : p.wf = true) :
    (p.dotActions b s d).wf = true := by
  have hf : (p.flagDot s d).wf = true := by
    unfold Ppu.flagDot
    split
    · exact Ppu.wf_congr h rfl rfl rfl rfl rfl rfl rfl rfl rfl
    split
    · exact Ppu.wf_congr h rfl rfl rfl rfl rfl rfl rfl rfl rfl
    · exact h
  unfold Ppu.dotActions
  dsimp only
  split
  · unfold Ppu.renderDot
    refine Ppu.wf_verticalDot s d (Ppu.wf_spriteDot b s d (Ppu.wf_lineEndDot s d (Ppu.wf_backgroundDot b d ?_)))
    split
    · rename_i hc
      exact Ppu.wf_emitPixel hf (by omega) (visibleLine_lt hc.1)
    · exact hf
  split
  · rename_i hc
    exact Ppu.wf_emitBackdrop hf (by omega) (visibleLine_lt hc.1)
  · exact hf

/-- The dot's actions leave the raster position, the frame parity and the mask as they were. -/
theorem Ppu.dotActions_position (b : Board) (s d : Nat) (p : Ppu) :
    (p.dotActions b s d).scanline = p.scanline ∧ (p.dotActions b s d).dot = p.dot ∧
    (p.dotActions b s d).oddFrame = p.oddFrame ∧ (p.dotActions b s d).mask = p.mask := by
  have hcopy : ∀ (ns : List Nat) (k : Nat) (q : Ppu), (Ppu.copySprites ns k q).scanline = q.scanline ∧
      (Ppu.copySprites ns k q).dot = q.dot ∧ (Ppu.copySprites ns k q).oddFrame = q.oddFrame ∧
      (Ppu.copySprites ns k q).mask = q.mask := by
    intro ns
    induction ns with
    | nil => intro k q; exact ⟨rfl, rfl, rfl, rfl⟩
    | cons n ns ih => intro k q; exact ih (k + 1) (q.copySprite n k)
  have hf : (p.flagDot s d).scanline = p.scanline ∧ (p.flagDot s d).dot = p.dot ∧
      (p.flagDot s d).oddFrame = p.oddFrame ∧ (p.flagDot s d).mask = p.mask := by
    unfold Ppu.flagDot
    split
    · exact ⟨rfl, rfl, rfl, rfl⟩
    split <;> exact ⟨rfl, rfl, rfl, rfl⟩
  have hb : ∀ q : Ppu, (q.backgroundDot b d).scanline = q.scanline ∧ (q.backgroundDot b d).dot = q.dot ∧
      (q.backgroundDot b d).oddFrame = q.oddFrame ∧ (q.backgroundDot b d).mask = q.mask := by
    intro q
    unfold Ppu.backgroundDot
    split
    · unfold Ppu.backgroundFetch
      split <;> exact ⟨rfl, rfl, rfl, rfl⟩
    · exact ⟨rfl, rfl, rfl, rfl⟩
  have hl : ∀ q : Ppu, (q.lineEndDot s d).scanline = q.scanline ∧ (q.lineEndDot s d).dot = q.dot ∧
      (q.lineEndDot s d).oddFrame = q.oddFrame ∧ (q.lineEndDot s d).mask = q.mask := by
    intro q
    unfold Ppu.lineEndDot
    split
    · exact ⟨rfl, rfl, rfl, rfl⟩
    split
    · dsimp only
      split
      · exact hcopy _ 0 { q with v := copyHorizontal q.v q.t }
      · exact ⟨rfl, rfl, rfl, rfl⟩
    · exact ⟨rfl, rfl, rfl, rfl⟩
  have hs : ∀ q : Ppu, (q.spriteDot b s d).scanline = q.scanline ∧ (q.spriteDot b s d).dot = q.dot ∧
      (q.spriteDot b s d).oddFrame = q.oddFrame ∧ (q.spriteDot b s d).mask = q.mask := by
    intro q
    unfold Ppu.spriteDot
    split
    · unfold Ppu.spriteFetch
      dsimp only
      split
      · split <;> exact ⟨rfl, rfl, rfl, rfl⟩
      · split <;> split <;> exact ⟨rfl, rfl, rfl, rfl⟩
      · exact ⟨rfl, rfl, rfl, rfl⟩
    · exact ⟨rfl, rfl, rfl, rfl⟩
  have hv : ∀ q : Ppu, (q.verticalDot s d).scanline = q.scanline ∧ (q.verticalDot s d).dot = q.dot ∧
      (q.verticalDot s d).oddFrame = q.oddFrame ∧ (q.verticalDot s d).mask = q.mask := by
    intro q
    unfold Ppu.verticalDot
    split <;> exact ⟨rfl, rfl, rfl, rfl⟩
  have hr : ∀ q : Ppu, (q.renderDot b s d).scanline = q.scanline ∧ (q.renderDot b s d).dot = q.dot ∧
      (q.renderDot b s d).oddFrame = q.oddFrame ∧ (q.renderDot b s d).mask = q.mask := by
    intro q
    unfold Ppu.renderDot
    dsimp only
    rw [(hv _).1, (hv _).2.1, (hv _).2.2.1, (hv _).2.2.2, (hs _).1, (hs _).2.1, (hs _).2.2.1, (hs _).2.2.2,
      (hl _).1, (hl _).2.1, (hl _).2.2.1, (hl _).2.2.2, (hb _).1, (hb _).2.1, (hb _).2.2.1, (hb _).2.2.2]
    split <;> exact ⟨rfl, rfl, rfl, rfl⟩
  unfold Ppu.dotActions
  dsimp only
  split
  · rw [(hr _).1, (hr _).2.1, (hr _).2.2.1, (hr _).2.2.2]
    exact hf
  split
  · exact hf
  · exact hf

theorem Ppu.wf_tick (b : Board) {p : Ppu} (h : p.wf = true) : (p.tick b).wf = true := by
  have ha := Ppu.wf_dotActions b p.scanline p.dot h
  obtain ⟨e1, e2, -, -⟩ := Ppu.dotActions_position b p.scanline p.dot p
  have hp := (Ppu.wf_iff p).1 h
  obtain ⟨-, -, -, -, -, -, -, hs, hd, -⟩ := hp
  unfold Ppu.tick
  rw [Ppu.wf_iff] at ha ⊢
  obtain ⟨h1, h2, h3, h4, h5, h6, h7, h8, h9, h10⟩ := ha
  unfold Ppu.advance
  rw [e2] at h9 ⊢
  rw [e1] at h8 ⊢
  split
  · exact ⟨h1, h2, h3, h4, h5, h6, h7, Nat.zero_le _, Nat.zero_le _, h10⟩
  · rename_i hf
    split
    · rename_i hdot
      refine ⟨h1, h2, h3, h4, h5, h6, h7, ?_, Nat.zero_le _, h10⟩
      have : p.scanline ≠ 261 := by
        intro hc
        simp [Ppu.frameEnds, hc, hdot] at hf
      show p.scanline + 1 ≤ 261
      omega
    · refine ⟨h1, h2, h3, h4, h5, h6, h7, h8, ?_, h10⟩
      show p.dot + 1 ≤ 340
      omega

/-! ## The board -/

theorem Board.wf_iff (b : Board) : b.wf = true ↔
    b.cart.wf = true ∧ b.mmc1.count ≤ 4 ∧ b.prgRam.wf 8192 = true ∧ b.chrRam.wf 8192 = true ∧
    (b.cart.hasChrRam = true ∨ b.chrRam = []) ∧
    (b.cart.mapper = .mmc1 ∨ b.prgRam = [] ∧ b.mmc1 = Mmc1.powerOn) := by
  simp only [Board.wf, Bool.and_eq_true, Bool.or_eq_true, decide_eq_true_eq, beq_iff_eq, and_assoc]

theorem Cartridge.chrLen_ram {c : Cartridge} (h : c.hasChrRam = true) : c.chrLen = 8192 := by
  simp [Cartridge.chrLen, h]

theorem Board.chrIndex_lt (b : Board) (a : PpuAddr) (ha : a.toNat < 0x2000) (h : b.cart.hasChrRam = true) :
    b.chrIndex a < 8192 := by
  unfold Board.chrIndex
  split
  · exact ha
  · rw [Cartridge.chrLen_ram h]
    exact Nat.mod_lt _ (by decide)

theorem Board.wf_ppuWrite {b : Board} {a : PpuAddr} (ha : a.toNat < 0x2000) (val : Byte) (h : b.wf = true) :
    (b.ppuWrite a val).wf = true := by
  unfold Board.ppuWrite
  split
  · rename_i hc
    rw [Board.wf_iff] at h ⊢
    obtain ⟨h1, h2, h3, h4, -, h6⟩ := h
    exact ⟨h1, h2, h3, Memory.wf_write _ (b.chrIndex_lt a ha hc) h4, Or.inl hc, h6⟩
  · exact h

theorem Mmc1.count_serial (a : Addr) (val : Byte) {m : Mmc1} (h : m.count ≤ 4) : (m.serial a val).count ≤ 4 := by
  unfold Mmc1.serial
  split
  · exact Nat.zero_le _
  · dsimp only
    split
    · exact Nat.zero_le _
    · show m.count + 1 ≤ 4
      omega

theorem Board.wf_cpuWrite {b : Board} (a : Addr) (val : Byte) (h : b.wf = true) : (b.cpuWrite a val).wf = true := by
  unfold Board.cpuWrite
  split
  · exact h
  · rename_i hm
    rw [Board.wf_iff] at h
    obtain ⟨h1, h2, h3, h4, h5, -⟩ := h
    split
    · exact (Board.wf_iff b).2 ⟨h1, h2, h3, h4, h5, Or.inl hm⟩
    split
    · exact (Board.wf_iff _).2 ⟨h1, h2, Memory.wf_write _ (by omega) h3, h4, h5, Or.inl hm⟩
    · exact (Board.wf_iff _).2 ⟨h1, Mmc1.count_serial a val h2, h3, h4, h5, Or.inl hm⟩

theorem Board.wf_portWrite {b : Board} (p : Ppu) (r : Nat) (val : Byte) (h : b.wf = true) :
    (p.boardAfterPortWrite b r val).wf = true := by
  unfold Ppu.boardAfterPortWrite
  split
  · unfold ppuWriteBoard
    split
    · rename_i ha
      exact Board.wf_ppuWrite ha val h
    · exact h
  · exact h

/-! ## The whole state, one bus access at a time -/

theorem State.wf_iff (s : State) : s.wf = true ↔
    s.ram.wf 2048 = true ∧ s.ppu.wf = true ∧ s.board.wf = true ∧ s.ports.frameOut.wf = true := by
  simp only [State.wf, Bool.and_eq_true, and_assoc]

theorem State.wf_mapCpu (f : Cpu → Cpu) {s : State} (h : s.wf = true) : (s.mapCpu f).wf = true := h

theorem State.wf_setPpu {p : Ppu} {s : State} (h : s.wf = true) (hp : p.wf = true) :
    (s.setPpu p).wf = true := by
  rw [State.wf_iff] at h ⊢
  exact ⟨h.1, hp, h.2.2.1, h.2.2.2⟩

theorem State.wf_setBoard {b : Board} {s : State} (h : s.wf = true) (hb : b.wf = true) :
    (s.setBoard b).wf = true := by
  rw [State.wf_iff] at h ⊢
  exact ⟨h.1, h.2.1, hb, h.2.2.2⟩

theorem State.wf_afterRead (a : Addr) {s : State} (h : s.wf = true) : (afterRead a s).wf = true := by
  rcases afterRead_cases a s with e | ⟨_, _, e⟩ | ⟨_, e⟩ | ⟨_, e⟩ <;> rw [e]
  · exact h
  · exact State.wf_mapCpu _ (State.wf_setPpu h (Ppu.wf_afterPortRead _ _ ((State.wf_iff s).1 h).2.1))
  · exact h
  · exact h

theorem State.wf_setRam {s : State} {j : Nat} (hj : j < 2048) (val : Byte) (h : s.wf = true) :
    (s.setRam (s.ram.write j val)).wf = true := by
  rw [State.wf_iff] at h ⊢
  exact ⟨Memory.wf_write _ hj h.1, h.2.1, h.2.2.1, h.2.2.2⟩

theorem State.wf_oamDma (val : Byte) {s : State} (h : s.wf = true) : (oamDma val s).wf = true := by
  have key : ∀ n i (s : State), s.wf = true → (dmaCopy val n i s).wf = true := by
    intro n
    induction n with
    | zero => intro i s h; exact h
    | succ n ih =>
      intro i s h
      exact ih _ _ (State.wf_setPpu (State.wf_afterRead _ h)
        (Ppu.wf_setOam ((State.wf_iff _).1 (State.wf_afterRead _ h)).2.1 _ _))
  exact State.wf_mapCpu _ (key 256 0 s h)

/-- EVERY MEMORY OPERATION KEEPS THE CANONICAL FORM: a bus write. -/
theorem State.wf_memWrite (a : Addr) (val : Byte) {s : State} (h : s.wf = true) : (memWrite a val s).wf = true := by
  have hp := ((State.wf_iff s).1 h).2.1
  have hb := ((State.wf_iff s).1 h).2.2.1
  rcases memWrite_cases a val s with ⟨_, e⟩ | ⟨_, _, e⟩ | ⟨_, e⟩ | ⟨_, e⟩ | ⟨_, _, _, _, e⟩ | ⟨_, e⟩ <;> rw [e]
  · exact State.wf_setRam (by unfold ramCell; omega) val h
  · exact State.wf_mapCpu _ (State.wf_setPpu (State.wf_setBoard h (Board.wf_portWrite _ _ _ hb))
      (Ppu.wf_afterPortWrite _ _ _ hp))
  · exact State.wf_oamDma val h
  · exact h
  · exact h
  · exact State.wf_setBoard h (Board.wf_cpuWrite a val hb)

theorem State.wf_push (val : Byte) {s : State} (h : s.wf = true) : (push val s).wf = true :=
  State.wf_mapCpu _ (State.wf_memWrite _ _ h)

theorem State.wf_pull {s : State} (h : s.wf = true) : (pull s).2.wf = true :=
  State.wf_afterRead _ (State.wf_mapCpu _ h)

theorem State.wf_dotStep {s : State} (h : s.wf = true) : (dotStep s).wf = true := by
  have hp := ((State.wf_iff s).1 h).2.1
  have ht := Ppu.wf_tick s.board hp
  have hfb := ((Ppu.wf_iff _).1 ht).2.2.2.2.2.2.2.2.2
  rw [State.wf_iff] at h ⊢
  refine ⟨h.1, ht, h.2.2.1, ?_⟩
  rw [dotStep_ports]
  split
  · unfold Ports.frameEvent
    dsimp only
    split <;> exact hfb
  · exact h.2.2.2

end Sys2Proof.Machine
end

