-- ==== Sys2Proof/Laws/Step.lean ====
section
/-! SUPPORT. What a step can do, once: the sequences, or a fetched instruction, each followed by the
clock; what fetching does; and that every shape of instruction keeps the state well formed. -/

namespace Sys2Proof.Machine

/-! ## Fetching -/

/-- An address of memory is read without effect. -/
theorem afterRead_isMemory {b : Board} {a : Addr} {s : State} (h : isMemory b a = true) : afterRead a s = s := by
  simp only [isMemory, Bool.or_eq_true, Bool.and_eq_true, decide_eq_true_eq] at h
  rcases h with (h | h) | h
  · exact afterRead_ram_addr h s
  · exact afterRead_cart (by omega) s
  · exact afterRead_cart (by omega) s

/-- Adding one and then `n` to an address. -/
theorem addr_add_succ (a : Addr) (n : Nat) : a + 1 + BitVec.ofNat 16 n = a + BitVec.ofNat 16 (n + 1) := by
  rw [BitVec.add_assoc, Nat.add_comm, BitVec.ofNat_add]; rfl

@[simp] theorem fetchByte_fst (s : State) : (fetchByte s).1 = busByte s.cpu.pc s := rfl
@[simp] theorem fetchByte_pc (s : State) : (fetchByte s).2.cpu.pc = s.cpu.pc + 1 := by simp [fetchByte]
@[simp] theorem fetchByte_board (s : State) : (fetchByte s).2.board = s.board := by simp [fetchByte]
@[simp] theorem fetchByte_ports (s : State) : (fetchByte s).2.ports = s.ports := by simp [fetchByte]
@[simp] theorem fetchByte_cyc (s : State) : (fetchByte s).2.cpu.cyc = s.cpu.cyc := by simp [fetchByte]
theorem fetchByte_wf {s : State} (h : s.wf = true) : (fetchByte s).2.wf = true :=
  State.wf_mapCpu _ (State.wf_afterRead _ h)

/-- From memory, a fetch only moves PC. -/
theorem fetchByte_memory {s : State} (h : isMemory s.board s.cpu.pc = true) :
    fetchByte s = (busByte s.cpu.pc s, s.mapCpu (Cpu.setPc (s.cpu.pc + 1))) := by
  simp only [fetchByte, memRead_fst, memRead_snd, afterRead_isMemory h]
  rfl

/-- Fetching moves PC by the count, and changes no board, port or `cyc`. -/
theorem fetchBytes_spec (n : Nat) : ∀ s : State,
    (fetchBytes n s).1.length = n ∧ (fetchBytes n s).2.cpu.pc = s.cpu.pc + BitVec.ofNat 16 n ∧
    (fetchBytes n s).2.board = s.board ∧ (fetchBytes n s).2.ports = s.ports ∧
    (fetchBytes n s).2.cpu.cyc = s.cpu.cyc ∧ (s.wf = true → (fetchBytes n s).2.wf = true) := by
  induction n with
  | zero => intro s; simp [fetchBytes]
  | succ n ih =>
    intro s
    obtain ⟨h1, h2, h3, h4, h5, h6⟩ := ih (fetchByte s).2
    refine ⟨by simp [fetchBytes, h1], ?_, by simp [fetchBytes, h3], by simp [fetchBytes, h4], by simp [fetchBytes, h5],
      fun h => h6 (fetchByte_wf h)⟩
    rw [← addr_add_succ, ← fetchByte_pc]
    exact h2

/-- From memory, fetching `bs` only moves PC past it. -/
theorem fetchBytes_memory (bs : List Byte) : ∀ s : State,
    (∀ k, k < bs.length → isMemory s.board (s.cpu.pc + BitVec.ofNat 16 k) = true ∧
      busByte (s.cpu.pc + BitVec.ofNat 16 k) s = bs.getD k 0) →
    fetchBytes bs.length s = (bs, s.mapCpu (Cpu.setPc (s.cpu.pc + BitVec.ofNat 16 bs.length))) := by
  induction bs with
  | nil => intro s _; simp [fetchBytes, State.mapCpu, Cpu.setPc]
  | cons b bs ih =>
    intro s h
    have h0 := h 0 (by simp)
    simp only [BitVec.ofNat_eq_ofNat, BitVec.add_zero, List.getD_cons_zero] at h0
    have hs := ih (s.mapCpu (Cpu.setPc (s.cpu.pc + 1))) (by
      intro k hk
      have := h (k + 1) (by simpa using hk)
      simp only [List.getD_cons_succ] at this
      simpa only [State.mapCpu_cpu, Cpu.setPc_pc, State.mapCpu_board, busByte_mapCpu, addr_add_succ] using this)
    rw [List.length_cons, fetchBytes, fetchByte_memory h0.1, hs, h0.2]
    simp only [State.mapCpu_cpu, Cpu.setPc_pc, addr_add_succ]
    rfl

/-- THE FETCH, once: the bytes decode to one instruction with nothing left over, or the opcode byte is
undefined and decoding says so. -/
theorem decode_fetchInstr (s : State) :
    (∃ i, decode (fetchInstr s).1 = .ok (i, [])) ∨
    (rowOf (busByte s.cpu.pc s) = none ∧
      decode (fetchInstr s).1 = .error (.undefinedOpcode (busByte s.cpu.pc s))) := by
  have h1 : (fetchInstr s).1 =
      busByte s.cpu.pc s :: (fetchBytes (operandBytes (busByte s.cpu.pc s)) (fetchByte s).2).1 := rfl
  have hl := (fetchBytes_spec (operandBytes (busByte s.cpu.pc s)) (fetchByte s).2).1
  rw [h1]
  generalize (fetchBytes (operandBytes (busByte s.cpu.pc s)) (fetchByte s).2).1 = bs at hl
  cases hr : rowOf (busByte s.cpu.pc s) with
  | none => exact .inr ⟨rfl, decode_undefined hr bs⟩
  | some r =>
    left
    simp only [operandBytes, hr] at hl
    have h2 : r.mode.operandBytes ≤ 2 := by cases r.mode <;> simp [Mode.operandBytes]
    rcases h : r.mode.operandBytes with _ | _ | _ | n
    · obtain rfl := List.length_eq_zero_iff.mp (hl.trans h)
      exact ⟨_, decode_row0 hr h _⟩
    · obtain ⟨b, rfl⟩ := List.length_eq_one_iff.mp (hl.trans h)
      exact ⟨_, decode_row1 hr h _ _⟩
    · obtain ⟨b, c, rfl⟩ := List.length_eq_two.mp (hl.trans h)
      exact ⟨_, decode_row2 hr h _ _ _⟩
    · omega

theorem fetchInstr_spec (s : State) :
    (fetchInstr s).2.cpu.pc = s.cpu.pc + BitVec.ofNat 16 (fetchInstr s).1.length ∧
    (fetchInstr s).2.board = s.board ∧ (fetchInstr s).2.ports = s.ports ∧
    (fetchInstr s).2.cpu.cyc = s.cpu.cyc ∧ (s.wf = true → (fetchInstr s).2.wf = true) := by
  obtain ⟨h1, h2, h3, h4, h5, h6⟩ := fetchBytes_spec (operandBytes (fetchByte s).1) (fetchByte s).2
  refine ⟨?_, h3.trans (fetchByte_board s), h4.trans (fetchByte_ports s), h5.trans (fetchByte_cyc s),
    fun h => h6 (fetchByte_wf h)⟩
  show (fetchBytes (operandBytes (fetchByte s).1) (fetchByte s).2).2.cpu.pc = _
  rw [h2, fetchByte_pc, addr_add_succ]
  show _ = s.cpu.pc + BitVec.ofNat 16 ((fetchBytes (operandBytes (fetchByte s).1) (fetchByte s).2).1.length + 1)
  rw [h1]

/-! ## The step -/

/-- Every instruction answers a next state. -/
theorem exec_next (i : Instr) (s : State) : ∃ t, exec i s = .next t := by
  cases i <;> exact ⟨_, rfl⟩

theorem due_of_fetchDue {s : State} (h : s.fetchDue) : due s = .instruction := by
  obtain ⟨h1, h2, h3, h4, h5⟩ := h
  unfold due
  rcases h5 with h | h <;> simp [h1, h2, h3, h4, h]

theorem fetchDue_of_due {s : State} (h : due s = .instruction) : s.fetchDue := by
  unfold due at h
  unfold State.fetchDue
  cases h1 : s.ports.resetLine <;> cases h2 : s.cpu.resetPending <;> cases h3 : s.cpu.halted <;>
    cases h4 : s.cpu.nmiPending <;> cases h5 : s.ports.irqLine <;> cases h6 : s.cpu.i <;> simp_all

/-- THE STEP, once: what a next state of a step is. -/
theorem step_next {s t : State} (h : step s = .next t) :
    t = clock (resetSequence s) ∨ t = clock (nmiSequence s) ∨ t = clock (irqSequence s) ∨
    ∃ i u, exec i (fetchInstr s).2 = .next u ∧ t = clock u := by
  change turn s = _ at h
  unfold turn at h
  split at h
  · cases h; exact .inl rfl
  · cases h
  · cases h; exact .inr (.inl rfl)
  · cases h; exact .inr (.inr (.inl rfl))
  · right; right; right
    rcases decode_fetchInstr s with ⟨i, hi⟩ | ⟨_, hi⟩
    · obtain ⟨u, hu⟩ := exec_next i (fetchInstr s).2
      simp only [fetch, hi, hu, clockOut] at h
      cases h
      exact ⟨i, u, hu, rfl⟩
    · simp only [fetch, hi] at h
      cases h

/-! ## Well-formed states -/

theorem State.wf_start (k : Nat) {s : State} (h : s.wf = true) : (s.start k).wf = true := h
theorem State.wf_penalty (b : Bool) {s : State} (h : s.wf = true) : (s.penalty b).wf = true := by
  cases b <;> exact h
theorem State.wf_onCpu (k : Nat) (f : Cpu → Cpu) {s : State} (h : s.wf = true) : (onCpu k f s).wf = true := h
theorem State.wf_readImm (k : Nat) (b : Byte) (f : Byte → Cpu → Cpu) {s : State} (h : s.wf = true) :
    (readImm k b f s).wf = true := h
theorem State.wf_modifyAcc (k : Nat) (res : Bool → Byte → Byte) (fl : Byte → Byte → Cpu → Cpu) {s : State}
    (h : s.wf = true) : (modifyAcc k res fl s).wf = true := h
theorem State.wf_readMem (k : Nat) (m : AddrMode) (f : Byte → Cpu → Cpu) {s : State} (h : s.wf = true) :
    (readMem k m f s).wf = true :=
  State.wf_penalty _ (State.wf_mapCpu _ (State.wf_afterRead _ (State.wf_start k h)))
theorem State.wf_storeMem (k : Nat) (m : AddrMode) (val : Cpu → Byte) {s : State} (h : s.wf = true) :
    (storeMem k m val s).wf = true := State.wf_memWrite _ _ (State.wf_start k h)
theorem State.wf_modifyMem (k : Nat) (m : AddrMode) (res : Bool → Byte → Byte) (fl : Byte → Byte → Cpu → Cpu)
    {s : State} (h : s.wf = true) : (modifyMem k m res fl s).wf = true :=
  State.wf_mapCpu _ (State.wf_memWrite _ _ (State.wf_afterRead _ (State.wf_start k h)))
theorem State.wf_branch (cond : Cpu → Bool) (d : Int) {s : State} (h : s.wf = true) :
    (branch cond d s).wf = true := by
  rw [branch_eq]; split <;> exact h
theorem State.wf_pushReg (k : Nat) (f : Cpu → Byte) {s : State} (h : s.wf = true) : (pushReg k f s).wf = true :=
  State.wf_push _ (State.wf_start k h)
theorem State.wf_pullReg (k : Nat) (f : Byte → Cpu → Cpu) {s : State} (h : s.wf = true) :
    (pullReg k f s).wf = true := State.wf_mapCpu _ (State.wf_pull (State.wf_start k h))
theorem State.wf_jumpTo (w : Addr) {s : State} (h : s.wf = true) : (jumpTo w s).wf = true := h
theorem State.wf_jumpIndirect (w : Addr) {s : State} (h : s.wf = true) : (jumpIndirect w s).wf = true :=
  State.wf_mapCpu _ (State.wf_afterRead _ (State.wf_afterRead _ h))
theorem State.wf_callSubroutine (w : Addr) {s : State} (h : s.wf = true) : (callSubroutine w s).wf = true :=
  State.wf_mapCpu _ (State.wf_push _ (State.wf_push _ h))
theorem State.wf_returnFromSubroutine {s : State} (h : s.wf = true) : (returnFromSubroutine s).wf = true :=
  State.wf_mapCpu _ (State.wf_pull (State.wf_pull h))
theorem State.wf_interrupt (vector : Addr) (b : Bool) (ret : Addr) {s : State} (h : s.wf = true) :
    (interrupt vector b ret s).wf = true :=
  State.wf_mapCpu _ (State.wf_afterRead _ (State.wf_afterRead _
    (State.wf_mapCpu _ (State.wf_push _ (State.wf_push _ (State.wf_push _ h))))))
theorem State.wf_softwareInterrupt {s : State} (h : s.wf = true) : (softwareInterrupt s).wf = true :=
  State.wf_interrupt _ _ _ h
theorem State.wf_returnFromInterrupt {s : State} (h : s.wf = true) : (returnFromInterrupt s).wf = true :=
  State.wf_mapCpu _ (State.wf_pull (State.wf_pull (State.wf_mapCpu _ (State.wf_pull h))))
theorem State.wf_resetSequence {s : State} (h : s.wf = true) : (resetSequence s).wf = true := by
  rw [resetSequence_eq]
  exact State.wf_setPpu (State.wf_mapCpu _ h) (Ppu.wf_onReset ((State.wf_iff s).mp h).2.1)
theorem State.wf_clock {s : State} (h : s.wf = true) : (clock s).wf = true :=
  clock_induction (P := fun t => t.wf = true) (fun _ => State.wf_mapCpu _) (fun _ => State.wf_dotStep) s h

end Sys2Proof.Machine
end

