-- ==== Sys2Proof/Laws/Tick.lean ====
section
/-! SUPPORT. What each stage of a tick can change, said once (a lemma `…_changes` a stage), the tick as its
stages, and the fields of the tick that statements about the renderer ask for. -/

namespace Sys2Proof.Machine

/-! ## What a stage can change -/

theorem Ppu.flagDot_changes (s d : Nat) (p : Ppu) :
    p.flagDot s d =
      { p with
        vblank := (p.flagDot s d).vblank, spr0Hit := (p.flagDot s d).spr0Hit
        sprOverflow := (p.flagDot s d).sprOverflow } := by
  unfold Ppu.flagDot
  split
  · rfl
  · split <;> rfl

theorem Ppu.backgroundDot_changes (b : Board) (d : Nat) (p : Ppu) :
    p.backgroundDot b d =
      { p with
        v := (p.backgroundDot b d).v
        bgLo := (p.backgroundDot b d).bgLo, bgHi := (p.backgroundDot b d).bgHi
        atLo := (p.backgroundDot b d).atLo, atHi := (p.backgroundDot b d).atHi
        atLatchLo := (p.backgroundDot b d).atLatchLo, atLatchHi := (p.backgroundDot b d).atLatchHi
        ntByte := (p.backgroundDot b d).ntByte, atBits := (p.backgroundDot b d).atBits
        ptLo := (p.backgroundDot b d).ptLo, ptHi := (p.backgroundDot b d).ptHi } := by
  unfold Ppu.backgroundDot
  split
  · unfold Ppu.backgroundFetch
    split <;> rfl
  · rfl

theorem Ppu.copySprites_changes (ns : List Nat) : ∀ (k : Nat) (p : Ppu),
    Ppu.copySprites ns k p = { p with secOam := (Ppu.copySprites ns k p).secOam } := by
  induction ns with
  | nil => intro k p; rfl
  | cons n ns ih =>
    intro k p
    rw [Ppu.copySprites, ih (k + 1) (p.copySprite n k)]
    rfl

/-- Copying reads primary OAM and writes secondary OAM, and looks at no other field. -/
theorem Ppu.copySprites_secOam_congr (ns : List Nat) : ∀ (k : Nat) {p q : Ppu}, q.oam = p.oam →
    q.secOam = p.secOam → (Ppu.copySprites ns k q).secOam = (Ppu.copySprites ns k p).secOam := by
  induction ns with
  | nil => intro k p q _ hs; exact hs
  | cons n ns ih =>
    intro k p q ho hs
    exact ih (k + 1) ho (by simp only [Ppu.copySprite, ho, hs])

theorem Ppu.evaluateSprites_changes (s : Nat) (p : Ppu) :
    p.evaluateSprites s =
      { p with
        secOam := (p.evaluateSprites s).secOam, secCount := (p.evaluateSprites s).secCount
        secHasSpr0 := (p.evaluateSprites s).secHasSpr0
        sprOverflow := (p.evaluateSprites s).sprOverflow } := by
  unfold Ppu.evaluateSprites
  dsimp only
  rw [Ppu.copySprites_changes]

theorem Ppu.lineEndDot_changes (s d : Nat) (p : Ppu) :
    p.lineEndDot s d =
      { p with
        v := (p.lineEndDot s d).v, secOam := (p.lineEndDot s d).secOam
        secCount := (p.lineEndDot s d).secCount, secHasSpr0 := (p.lineEndDot s d).secHasSpr0
        sprOverflow := (p.lineEndDot s d).sprOverflow } := by
  unfold Ppu.lineEndDot
  split
  · rfl
  · split
    · dsimp only
      split
      · rw [Ppu.evaluateSprites_changes]
      · rfl
    · rfl

theorem Ppu.spriteDot_changes (b : Board) (s d : Nat) (p : Ppu) :
    p.spriteDot b s d =
      { p with
        oamAddr := (p.spriteDot b s d).oamAddr, tmpLo := (p.spriteDot b s d).tmpLo
        units := (p.spriteDot b s d).units
        unitsHaveSpr0 := (p.spriteDot b s d).unitsHaveSpr0 } := by
  unfold Ppu.spriteDot
  split
  · unfold Ppu.spriteFetch
    dsimp only
    split
    · split <;> rfl
    · split <;> split <;> rfl
    · rfl
  · rfl

theorem Ppu.verticalDot_changes (s d : Nat) (p : Ppu) :
    p.verticalDot s d = { p with v := (p.verticalDot s d).v } := by
  unfold Ppu.verticalDot
  split <;> rfl

theorem Ppu.advance_changes (ends : Bool) (p : Ppu) :
    p.advance ends =
      { p with
        scanline := (p.advance ends).scanline, dot := (p.advance ends).dot
        oddFrame := (p.advance ends).oddFrame } := by
  unfold Ppu.advance
  split
  · rfl
  · split <;> rfl

/-- A visible dot with rendering enabled emits first (R290). -/
def Ppu.emitted (s d : Nat) (p : Ppu) : Ppu :=
  if visibleLine s = true ∧ 1 ≤ d ∧ d ≤ 256 then p.emitPixel (d - 1) s else p

theorem Ppu.emitted_changes (s d : Nat) (p : Ppu) :
    p.emitted s d =
      { p with
        spr0Hit := (p.emitted s d).spr0Hit, framebuffer := (p.emitted s d).framebuffer
        units := (p.emitted s d).units } := by
  unfold Ppu.emitted
  split <;> rfl

/-! ## The tick as its stages -/

theorem Ppu.renderingInProgress_iff (p : Ppu) :
    p.renderingInProgress = true ↔
      (p.mask.getLsbD 3 || p.mask.getLsbD 4) = true ∧ (p.scanline ≤ 239 ∨ p.scanline = 261) := by
  simp [Ppu.renderingInProgress, Ppu.rendering, renderLine]

theorem Ppu.flagDot_mask (s d : Nat) (p : Ppu) : (p.flagDot s d).mask = p.mask := by rw [Ppu.flagDot_changes]

theorem Ppu.tick_drawing (b : Board) {p : Ppu} (h : p.renderingInProgress = true) :
    p.tick b =
      ((((((p.flagDot p.scanline p.dot).emitted p.scanline p.dot).backgroundDot b p.dot).lineEndDot p.scanline
        p.dot).spriteDot b p.scanline p.dot).verticalDot p.scanline p.dot).advance p.frameEnds := by
  have h' : renderLine p.scanline = true ∧ (p.flagDot p.scanline p.dot).rendering = true := by
    rw [Ppu.renderingInProgress, Bool.and_eq_true] at h
    exact ⟨h.2, by rw [Ppu.rendering, Ppu.flagDot_mask]; exact h.1⟩
  unfold Ppu.tick Ppu.dotActions
  dsimp only
  rw [if_pos h']
  rfl

/-- A tick outside rendering sets flags, may write a pixel, and advances (R290, R326). -/
theorem Ppu.tick_idle (b : Board) {p : Ppu} (h : ¬ p.renderingInProgress = true) :
    ∃ f, p.tick b = ({ p.flagDot p.scanline p.dot with framebuffer := f } : Ppu).advance p.frameEnds := by
  have h' : ¬ (renderLine p.scanline = true ∧ (p.flagDot p.scanline p.dot).rendering = true) := by
    rw [Ppu.rendering, Ppu.flagDot_mask]
    intro x
    exact h (by rw [Ppu.renderingInProgress, Bool.and_eq_true]; exact ⟨x.2, x.1⟩)
  unfold Ppu.tick Ppu.dotActions
  dsimp only
  rw [if_neg h']
  split
  · exact ⟨_, rfl⟩
  · exact ⟨_, rfl⟩

/-! ## What a fetch depends on -/

theorem ppuRead_congr (b : Board) {p q : Ppu} (a : PpuAddr) (hn : q.ntRam = p.ntRam)
    (hp : q.palette = p.palette) : ppuRead b q a = ppuRead b p a := by
  simp only [ppuRead, hn, hp]

theorem Ppu.spritePatAddr_congr {p q : Ppu} (h : q.ctrl = p.ctrl) (s : Nat) (y tile attr : Byte) :
    q.spritePatAddr s y tile attr = p.spritePatAddr s y tile attr := by
  simp only [Ppu.spritePatAddr, Ppu.spriteRow, Ppu.spriteHeight, h]

/-! ## Fields a stage leaves -/

@[simp] theorem Ppu.flagDot_ctrl (s d : Nat) (p : Ppu) : (p.flagDot s d).ctrl = p.ctrl := by
  rw [Ppu.flagDot_changes]
@[simp] theorem Ppu.flagDot_ntRam (s d : Nat) (p : Ppu) : (p.flagDot s d).ntRam = p.ntRam := by
  rw [Ppu.flagDot_changes]
@[simp] theorem Ppu.flagDot_palette (s d : Nat) (p : Ppu) : (p.flagDot s d).palette = p.palette := by
  rw [Ppu.flagDot_changes]
@[simp] theorem Ppu.flagDot_oam (s d : Nat) (p : Ppu) : (p.flagDot s d).oam = p.oam := by
  rw [Ppu.flagDot_changes]
@[simp] theorem Ppu.flagDot_v (s d : Nat) (p : Ppu) : (p.flagDot s d).v = p.v := by
  rw [Ppu.flagDot_changes]
@[simp] theorem Ppu.flagDot_t (s d : Nat) (p : Ppu) : (p.flagDot s d).t = p.t := by
  rw [Ppu.flagDot_changes]
@[simp] theorem Ppu.flagDot_secOam (s d : Nat) (p : Ppu) : (p.flagDot s d).secOam = p.secOam := by
  rw [Ppu.flagDot_changes]
@[simp] theorem Ppu.flagDot_secCount (s d : Nat) (p : Ppu) : (p.flagDot s d).secCount = p.secCount := by
  rw [Ppu.flagDot_changes]
@[simp] theorem Ppu.flagDot_secHasSpr0 (s d : Nat) (p : Ppu) : (p.flagDot s d).secHasSpr0 = p.secHasSpr0 := by
  rw [Ppu.flagDot_changes]
@[simp] theorem Ppu.flagDot_units (s d : Nat) (p : Ppu) : (p.flagDot s d).units = p.units := by
  rw [Ppu.flagDot_changes]
@[simp] theorem Ppu.flagDot_unitsHaveSpr0 (s d : Nat) (p : Ppu) : (p.flagDot s d).unitsHaveSpr0 = p.unitsHaveSpr0 := by
  rw [Ppu.flagDot_changes]
@[simp] theorem Ppu.flagDot_tmpLo (s d : Nat) (p : Ppu) : (p.flagDot s d).tmpLo = p.tmpLo := by
  rw [Ppu.flagDot_changes]
@[simp] theorem Ppu.emitted_ctrl (s d : Nat) (p : Ppu) : (p.emitted s d).ctrl = p.ctrl := by
  rw [Ppu.emitted_changes]
@[simp] theorem Ppu.emitted_ntRam (s d : Nat) (p : Ppu) : (p.emitted s d).ntRam = p.ntRam := by
  rw [Ppu.emitted_changes]
@[simp] theorem Ppu.emitted_palette (s d : Nat) (p : Ppu) : (p.emitted s d).palette = p.palette := by
  rw [Ppu.emitted_changes]
@[simp] theorem Ppu.emitted_oam (s d : Nat) (p : Ppu) : (p.emitted s d).oam = p.oam := by
  rw [Ppu.emitted_changes]
@[simp] theorem Ppu.emitted_v (s d : Nat) (p : Ppu) : (p.emitted s d).v = p.v := by
  rw [Ppu.emitted_changes]
@[simp] theorem Ppu.emitted_t (s d : Nat) (p : Ppu) : (p.emitted s d).t = p.t := by
  rw [Ppu.emitted_changes]
@[simp] theorem Ppu.emitted_secOam (s d : Nat) (p : Ppu) : (p.emitted s d).secOam = p.secOam := by
  rw [Ppu.emitted_changes]
@[simp] theorem Ppu.emitted_secCount (s d : Nat) (p : Ppu) : (p.emitted s d).secCount = p.secCount := by
  rw [Ppu.emitted_changes]
@[simp] theorem Ppu.emitted_secHasSpr0 (s d : Nat) (p : Ppu) : (p.emitted s d).secHasSpr0 = p.secHasSpr0 := by
  rw [Ppu.emitted_changes]
@[simp] theorem Ppu.emitted_sprOverflow (s d : Nat) (p : Ppu) : (p.emitted s d).sprOverflow = p.sprOverflow := by
  rw [Ppu.emitted_changes]
@[simp] theorem Ppu.emitted_unitsHaveSpr0 (s d : Nat) (p : Ppu) : (p.emitted s d).unitsHaveSpr0 = p.unitsHaveSpr0 := by
  rw [Ppu.emitted_changes]
@[simp] theorem Ppu.emitted_tmpLo (s d : Nat) (p : Ppu) : (p.emitted s d).tmpLo = p.tmpLo := by
  rw [Ppu.emitted_changes]
@[simp] theorem Ppu.backgroundDot_ctrl (b : Board) (d : Nat) (p : Ppu) : (p.backgroundDot b d).ctrl = p.ctrl := by
  rw [Ppu.backgroundDot_changes]
@[simp] theorem Ppu.backgroundDot_ntRam (b : Board) (d : Nat) (p : Ppu) : (p.backgroundDot b d).ntRam = p.ntRam := by
  rw [Ppu.backgroundDot_changes]
@[simp] theorem Ppu.backgroundDot_palette (b : Board) (d : Nat) (p : Ppu) : (p.backgroundDot b d).palette = p.palette := by
  rw [Ppu.backgroundDot_changes]
@[simp] theorem Ppu.backgroundDot_oam (b : Board) (d : Nat) (p : Ppu) : (p.backgroundDot b d).oam = p.oam := by
  rw [Ppu.backgroundDot_changes]
@[simp] theorem Ppu.backgroundDot_t (b : Board) (d : Nat) (p : Ppu) : (p.backgroundDot b d).t = p.t := by
  rw [Ppu.backgroundDot_changes]
@[simp] theorem Ppu.backgroundDot_secOam (b : Board) (d : Nat) (p : Ppu) : (p.backgroundDot b d).secOam = p.secOam := by
  rw [Ppu.backgroundDot_changes]
@[simp] theorem Ppu.backgroundDot_secCount (b : Board) (d : Nat) (p : Ppu) : (p.backgroundDot b d).secCount = p.secCount := by
  rw [Ppu.backgroundDot_changes]
@[simp] theorem Ppu.backgroundDot_secHasSpr0 (b : Board) (d : Nat) (p : Ppu) : (p.backgroundDot b d).secHasSpr0 = p.secHasSpr0 := by
  rw [Ppu.backgroundDot_changes]
@[simp] theorem Ppu.backgroundDot_sprOverflow (b : Board) (d : Nat) (p : Ppu) : (p.backgroundDot b d).sprOverflow = p.sprOverflow := by
  rw [Ppu.backgroundDot_changes]
@[simp] theorem Ppu.backgroundDot_spr0Hit (b : Board) (d : Nat) (p : Ppu) : (p.backgroundDot b d).spr0Hit = p.spr0Hit := by
  rw [Ppu.backgroundDot_changes]
@[simp] theorem Ppu.backgroundDot_units (b : Board) (d : Nat) (p : Ppu) : (p.backgroundDot b d).units = p.units := by
  rw [Ppu.backgroundDot_changes]
@[simp] theorem Ppu.backgroundDot_unitsHaveSpr0 (b : Board) (d : Nat) (p : Ppu) : (p.backgroundDot b d).unitsHaveSpr0 = p.unitsHaveSpr0 := by
  rw [Ppu.backgroundDot_changes]
@[simp] theorem Ppu.backgroundDot_tmpLo (b : Board) (d : Nat) (p : Ppu) : (p.backgroundDot b d).tmpLo = p.tmpLo := by
  rw [Ppu.backgroundDot_changes]
@[simp] theorem Ppu.lineEndDot_ctrl (s d : Nat) (p : Ppu) : (p.lineEndDot s d).ctrl = p.ctrl := by
  rw [Ppu.lineEndDot_changes]
@[simp] theorem Ppu.lineEndDot_ntRam (s d : Nat) (p : Ppu) : (p.lineEndDot s d).ntRam = p.ntRam := by
  rw [Ppu.lineEndDot_changes]
@[simp] theorem Ppu.lineEndDot_palette (s d : Nat) (p : Ppu) : (p.lineEndDot s d).palette = p.palette := by
  rw [Ppu.lineEndDot_changes]
@[simp] theorem Ppu.lineEndDot_oam (s d : Nat) (p : Ppu) : (p.lineEndDot s d).oam = p.oam := by
  rw [Ppu.lineEndDot_changes]
@[simp] theorem Ppu.lineEndDot_t (s d : Nat) (p : Ppu) : (p.lineEndDot s d).t = p.t := by
  rw [Ppu.lineEndDot_changes]
@[simp] theorem Ppu.lineEndDot_spr0Hit (s d : Nat) (p : Ppu) : (p.lineEndDot s d).spr0Hit = p.spr0Hit := by
  rw [Ppu.lineEndDot_changes]
@[simp] theorem Ppu.lineEndDot_units (s d : Nat) (p : Ppu) : (p.lineEndDot s d).units = p.units := by
  rw [Ppu.lineEndDot_changes]
@[simp] theorem Ppu.lineEndDot_unitsHaveSpr0 (s d : Nat) (p : Ppu) : (p.lineEndDot s d).unitsHaveSpr0 = p.unitsHaveSpr0 := by
  rw [Ppu.lineEndDot_changes]
@[simp] theorem Ppu.lineEndDot_tmpLo (s d : Nat) (p : Ppu) : (p.lineEndDot s d).tmpLo = p.tmpLo := by
  rw [Ppu.lineEndDot_changes]
@[simp] theorem Ppu.spriteDot_ctrl (b : Board) (s d : Nat) (p : Ppu) : (p.spriteDot b s d).ctrl = p.ctrl := by
  rw [Ppu.spriteDot_changes]
@[simp] theorem Ppu.spriteDot_ntRam (b : Board) (s d : Nat) (p : Ppu) : (p.spriteDot b s d).ntRam = p.ntRam := by
  rw [Ppu.spriteDot_changes]
@[simp] theorem Ppu.spriteDot_palette (b : Board) (s d : Nat) (p : Ppu) : (p.spriteDot b s d).palette = p.palette := by
  rw [Ppu.spriteDot_changes]
@[simp] theorem Ppu.spriteDot_oam (b : Board) (s d : Nat) (p : Ppu) : (p.spriteDot b s d).oam = p.oam := by
  rw [Ppu.spriteDot_changes]
@[simp] theorem Ppu.spriteDot_v (b : Board) (s d : Nat) (p : Ppu) : (p.spriteDot b s d).v = p.v := by
  rw [Ppu.spriteDot_changes]
@[simp] theorem Ppu.spriteDot_t (b : Board) (s d : Nat) (p : Ppu) : (p.spriteDot b s d).t = p.t := by
  rw [Ppu.spriteDot_changes]
@[simp] theorem Ppu.spriteDot_secOam (b : Board) (s d : Nat) (p : Ppu) : (p.spriteDot b s d).secOam = p.secOam := by
  rw [Ppu.spriteDot_changes]
@[simp] theorem Ppu.spriteDot_secCount (b : Board) (s d : Nat) (p : Ppu) : (p.spriteDot b s d).secCount = p.secCount := by
  rw [Ppu.spriteDot_changes]
@[simp] theorem Ppu.spriteDot_secHasSpr0 (b : Board) (s d : Nat) (p : Ppu) : (p.spriteDot b s d).secHasSpr0 = p.secHasSpr0 := by
  rw [Ppu.spriteDot_changes]
@[simp] theorem Ppu.spriteDot_sprOverflow (b : Board) (s d : Nat) (p : Ppu) : (p.spriteDot b s d).sprOverflow = p.sprOverflow := by
  rw [Ppu.spriteDot_changes]
@[simp] theorem Ppu.spriteDot_spr0Hit (b : Board) (s d : Nat) (p : Ppu) : (p.spriteDot b s d).spr0Hit = p.spr0Hit := by
  rw [Ppu.spriteDot_changes]
@[simp] theorem Ppu.verticalDot_ctrl (s d : Nat) (p : Ppu) : (p.verticalDot s d).ctrl = p.ctrl := by
  rw [Ppu.verticalDot_changes]
@[simp] theorem Ppu.verticalDot_ntRam (s d : Nat) (p : Ppu) : (p.verticalDot s d).ntRam = p.ntRam := by
  rw [Ppu.verticalDot_changes]
@[simp] theorem Ppu.verticalDot_palette (s d : Nat) (p : Ppu) : (p.verticalDot s d).palette = p.palette := by
  rw [Ppu.verticalDot_changes]
@[simp] theorem Ppu.verticalDot_oam (s d : Nat) (p : Ppu) : (p.verticalDot s d).oam = p.oam := by
  rw [Ppu.verticalDot_changes]
@[simp] theorem Ppu.verticalDot_t (s d : Nat) (p : Ppu) : (p.verticalDot s d).t = p.t := by
  rw [Ppu.verticalDot_changes]
@[simp] theorem Ppu.verticalDot_secOam (s d : Nat) (p : Ppu) : (p.verticalDot s d).secOam = p.secOam := by
  rw [Ppu.verticalDot_changes]
@[simp] theorem Ppu.verticalDot_secCount (s d : Nat) (p : Ppu) : (p.verticalDot s d).secCount = p.secCount := by
  rw [Ppu.verticalDot_changes]
@[simp] theorem Ppu.verticalDot_secHasSpr0 (s d : Nat) (p : Ppu) : (p.verticalDot s d).secHasSpr0 = p.secHasSpr0 := by
  rw [Ppu.verticalDot_changes]
@[simp] theorem Ppu.verticalDot_sprOverflow (s d : Nat) (p : Ppu) : (p.verticalDot s d).sprOverflow = p.sprOverflow := by
  rw [Ppu.verticalDot_changes]
@[simp] theorem Ppu.verticalDot_spr0Hit (s d : Nat) (p : Ppu) : (p.verticalDot s d).spr0Hit = p.spr0Hit := by
  rw [Ppu.verticalDot_changes]
@[simp] theorem Ppu.verticalDot_units (s d : Nat) (p : Ppu) : (p.verticalDot s d).units = p.units := by
  rw [Ppu.verticalDot_changes]
@[simp] theorem Ppu.verticalDot_unitsHaveSpr0 (s d : Nat) (p : Ppu) : (p.verticalDot s d).unitsHaveSpr0 = p.unitsHaveSpr0 := by
  rw [Ppu.verticalDot_changes]
@[simp] theorem Ppu.verticalDot_tmpLo (s d : Nat) (p : Ppu) : (p.verticalDot s d).tmpLo = p.tmpLo := by
  rw [Ppu.verticalDot_changes]
@[simp] theorem Ppu.advance_ctrl (e : Bool) (p : Ppu) : (p.advance e).ctrl = p.ctrl := by
  rw [Ppu.advance_changes]
@[simp] theorem Ppu.advance_ntRam (e : Bool) (p : Ppu) : (p.advance e).ntRam = p.ntRam := by
  rw [Ppu.advance_changes]
@[simp] theorem Ppu.advance_palette (e : Bool) (p : Ppu) : (p.advance e).palette = p.palette := by
  rw [Ppu.advance_changes]
@[simp] theorem Ppu.advance_oam (e : Bool) (p : Ppu) : (p.advance e).oam = p.oam := by
  rw [Ppu.advance_changes]
@[simp] theorem Ppu.advance_v (e : Bool) (p : Ppu) : (p.advance e).v = p.v := by
  rw [Ppu.advance_changes]
@[simp] theorem Ppu.advance_t (e : Bool) (p : Ppu) : (p.advance e).t = p.t := by
  rw [Ppu.advance_changes]
@[simp] theorem Ppu.advance_secOam (e : Bool) (p : Ppu) : (p.advance e).secOam = p.secOam := by
  rw [Ppu.advance_changes]
@[simp] theorem Ppu.advance_secCount (e : Bool) (p : Ppu) : (p.advance e).secCount = p.secCount := by
  rw [Ppu.advance_changes]
@[simp] theorem Ppu.advance_secHasSpr0 (e : Bool) (p : Ppu) : (p.advance e).secHasSpr0 = p.secHasSpr0 := by
  rw [Ppu.advance_changes]
@[simp] theorem Ppu.advance_sprOverflow (e : Bool) (p : Ppu) : (p.advance e).sprOverflow = p.sprOverflow := by
  rw [Ppu.advance_changes]
@[simp] theorem Ppu.advance_spr0Hit (e : Bool) (p : Ppu) : (p.advance e).spr0Hit = p.spr0Hit := by
  rw [Ppu.advance_changes]
@[simp] theorem Ppu.advance_units (e : Bool) (p : Ppu) : (p.advance e).units = p.units := by
  rw [Ppu.advance_changes]
@[simp] theorem Ppu.advance_unitsHaveSpr0 (e : Bool) (p : Ppu) : (p.advance e).unitsHaveSpr0 = p.unitsHaveSpr0 := by
  rw [Ppu.advance_changes]
@[simp] theorem Ppu.advance_tmpLo (e : Bool) (p : Ppu) : (p.advance e).tmpLo = p.tmpLo := by
  rw [Ppu.advance_changes]

end Sys2Proof.Machine
end

