-- ==== Sys2Proof/Machine/Trace.lean ====
section
/-! DEFINITION. The per-instruction trace (60_exceptions.md R440) and the assembler spelling it
prints (30_encoding.md R103, R116). It observes a state and changes nothing. -/

namespace Sys2Proof.Machine

/-- A hexadecimal digit, upper case (log entry 9). -/
def hexDigit (n : Nat) : Char :=
  ['0', '1', '2', '3', '4', '5', '6', '7', '8', '9', 'A', 'B', 'C', 'D', 'E', 'F'].getD n '0'

/-- A byte as two hexadecimal digits. -/
def hexByte (b : Byte) : List Char := [hexDigit (b.toNat / 16), hexDigit (b.toNat % 16)]

/-- An address as four hexadecimal digits. -/
def hexAddr (a : Addr) : List Char := hexByte (hiByte a) ++ hexByte (loByte a)

/-- The operand's spelling (R103), a branch's as its target address (R116); `next` is the address
after the instruction. -/
def operandText (m : Mode) (lo hi : Byte) (next : Addr) : List Char :=
  let nn := '$' :: hexByte lo
  let nnnn := '$' :: hexAddr (abs16 lo hi)
  match m with
  | .imp => []
  | .acc => [' ', 'A']
  | .imm => ' ' :: '#' :: nn
  | .zp => ' ' :: nn
  | .zpx => ' ' :: nn ++ [',', 'X']
  | .zpy => ' ' :: nn ++ [',', 'Y']
  | .abs => ' ' :: nnnn
  | .abx => ' ' :: nnnn ++ [',', 'X']
  | .aby => ' ' :: nnnn ++ [',', 'Y']
  | .ind => ' ' :: '(' :: nnnn ++ [')']
  | .izx => ' ' :: '(' :: nn ++ [',', 'X', ')']
  | .izy => ' ' :: '(' :: nn ++ [')', ',', 'Y']
  | .rel => ' ' :: '$' :: hexAddr (next + BitVec.ofInt 16 lo.toInt)

/-- A trace line's values, those before the instruction (R440). -/
structure TraceLine where
  pc : Addr
  bytes : List Byte
  mnemonic : String
  operand : List Char
  a : Byte
  x : Byte
  y : Byte
  p : Byte
  sp : Byte
  scanline : Nat
  dot : Nat
  deriving DecidableEq, Repr

/-- The line of an instruction step; `none` for any other step (log entry 9). The bytes are looked
at on the bus as it stands, and no side effect of a read is kept. -/
def traceLine (s : State) : Option TraceLine :=
  if due s = .instruction then
    let bytes := (fetchInstr s).1
    (rowOf (bytes.getD 0 0)).map fun r =>
      { pc := s.cpu.pc, bytes := bytes, mnemonic := r.mnemonic
        operand :=
          operandText r.mode (bytes.getD 1 0) (bytes.getD 2 0) (s.cpu.pc + BitVec.ofNat 16 bytes.length)
        a := s.cpu.a, x := s.cpu.x, y := s.cpu.y, p := s.cpu.p, sp := s.cpu.s
        scanline := s.ppu.scanline, dot := s.ppu.dot }
  else none

/-- Bytes in hexadecimal, one space between. -/
def hexBytes : List Byte → List Char
  | [] => []
  | [b] => hexByte b
  | b :: bs => hexByte b ++ ' ' :: hexBytes bs

/-- The line as text (R440). -/
def TraceLine.text (l : TraceLine) : String :=
  String.ofList (hexAddr l.pc ++ ' ' :: hexBytes l.bytes ++ [' ', ' ']) ++ l.mnemonic ++
    String.ofList (l.operand) ++ "  A:" ++ String.ofList (hexByte l.a) ++ " X:" ++
    String.ofList (hexByte l.x) ++ " Y:" ++ String.ofList (hexByte l.y) ++ " P:" ++
    String.ofList (hexByte l.p) ++ " SP:" ++ String.ofList (hexByte l.sp) ++ " | PPU: L:" ++
    toString l.scanline ++ " CYC:" ++ toString l.dot

end Sys2Proof.Machine
end

