-- ==== Sys2Proof/Tests/Slice0.lean ====
section
/-! SUPPORT. The model's own tests, and for each obligation with hypotheses a witness that meets them.
Expected words come from the encodings of spec/opcode_table.json, expected results from
spec/95_test_vectors.md; the section each test is from is named above it. -/

namespace Sys2Proof.Tests

open Sys2Proof Sys2Proof.Machine Sys2Proof.Spec

/-! ## Well-formedness -/

/-- A displacement one past either end of -128 to +127 is refused, and the ends are not (R102). -/
def dispChecked (f : Int → Instr) : Bool :=
  (f (-128)).wellFormed && (f 127).wellFormed && !(f (-129)).wellFormed && !(f 128).wellFormed

theorem test_wellFormed_bcc : dispChecked .bcc = true := by decide
theorem test_wellFormed_bcs : dispChecked .bcs = true := by decide
theorem test_wellFormed_beq : dispChecked .beq = true := by decide
theorem test_wellFormed_bmi : dispChecked .bmi = true := by decide
theorem test_wellFormed_bne : dispChecked .bne = true := by decide
theorem test_wellFormed_bpl : dispChecked .bpl = true := by decide
theorem test_wellFormed_bvc : dispChecked .bvc = true := by decide
theorem test_wellFormed_bvs : dispChecked .bvs = true := by decide

/-! ## Decoding: every row of the table, its word written out from the row's encoding -/

/-- Each word decodes to its instruction, with nothing left. -/
def decodes (l : List (List Byte × Instr)) : Bool :=
  l.all (fun e => match decode e.1 with
    | .ok (i, []) => i == e.2
    | _ => false)

theorem test_decodes_load_store_transfer_1 : decodes
  [([0x81, 0x34], .staIzx 0x34), ([0x84, 0x34], .styZp 0x34), ([0x85, 0x34], .staZp 0x34),
   ([0x86, 0x34], .stxZp 0x34), ([0x8A], .txa), ([0x8C, 0x34, 0x12], .styAbs 0x1234),
   ([0x8D, 0x34, 0x12], .staAbs 0x1234), ([0x8E, 0x34, 0x12], .stxAbs 0x1234),
   ([0x91, 0x34], .staIzy 0x34), ([0x94, 0x34], .styZpx 0x34), ([0x95, 0x34], .staZpx 0x34),
   ([0x96, 0x34], .stxZpy 0x34), ([0x98], .tya), ([0x99, 0x34, 0x12], .staAby 0x1234), ([0x9A], .txs),
   ([0x9D, 0x34, 0x12], .staAbx 0x1234), ([0xA0, 0x34], .ldyImm 0x34), ([0xA1, 0x34], .ldaIzx 0x34),
   ([0xA2, 0x34], .ldxImm 0x34), ([0xA4, 0x34], .ldyZp 0x34), ([0xA5, 0x34], .ldaZp 0x34),
   ([0xA6, 0x34], .ldxZp 0x34), ([0xA8], .tay), ([0xA9, 0x34], .ldaImm 0x34), ([0xAA], .tax),
   ([0xAC, 0x34, 0x12], .ldyAbs 0x1234), ([0xAD, 0x34, 0x12], .ldaAbs 0x1234),
   ([0xAE, 0x34, 0x12], .ldxAbs 0x1234)] = true := by decide

theorem test_decodes_load_store_transfer_2 : decodes
  [([0xB1, 0x34], .ldaIzy 0x34), ([0xB4, 0x34], .ldyZpx 0x34), ([0xB5, 0x34], .ldaZpx 0x34),
   ([0xB6, 0x34], .ldxZpy 0x34), ([0xB9, 0x34, 0x12], .ldaAby 0x1234), ([0xBA], .tsx),
   ([0xBC, 0x34, 0x12], .ldyAbx 0x1234), ([0xBD, 0x34, 0x12], .ldaAbx 0x1234),
   ([0xBE, 0x34, 0x12], .ldxAby 0x1234)] = true := by decide

theorem test_decodes_stack : decodes
  [([0x08], .php), ([0x28], .plp), ([0x48], .pha), ([0x68], .pla)] = true := by decide

theorem test_decodes_logic_arith_compare_1 : decodes
  [([0x01, 0x34], .oraIzx 0x34), ([0x05, 0x34], .oraZp 0x34), ([0x09, 0x34], .oraImm 0x34),
   ([0x0D, 0x34, 0x12], .oraAbs 0x1234), ([0x11, 0x34], .oraIzy 0x34), ([0x15, 0x34], .oraZpx 0x34),
   ([0x19, 0x34, 0x12], .oraAby 0x1234), ([0x1D, 0x34, 0x12], .oraAbx 0x1234),
   ([0x21, 0x34], .andIzx 0x34), ([0x24, 0x34], .bitZp 0x34), ([0x25, 0x34], .andZp 0x34),
   ([0x29, 0x34], .andImm 0x34), ([0x2C, 0x34, 0x12], .bitAbs 0x1234),
   ([0x2D, 0x34, 0x12], .andAbs 0x1234), ([0x31, 0x34], .andIzy 0x34), ([0x35, 0x34], .andZpx 0x34),
   ([0x39, 0x34, 0x12], .andAby 0x1234), ([0x3D, 0x34, 0x12], .andAbx 0x1234),
   ([0x41, 0x34], .eorIzx 0x34), ([0x45, 0x34], .eorZp 0x34), ([0x49, 0x34], .eorImm 0x34),
   ([0x4D, 0x34, 0x12], .eorAbs 0x1234), ([0x51, 0x34], .eorIzy 0x34), ([0x55, 0x34], .eorZpx 0x34),
   ([0x59, 0x34, 0x12], .eorAby 0x1234), ([0x5D, 0x34, 0x12], .eorAbx 0x1234),
   ([0x61, 0x34], .adcIzx 0x34), ([0x65, 0x34], .adcZp 0x34)] = true := by decide

theorem test_decodes_logic_arith_compare_2 : decodes
  [([0x69, 0x34], .adcImm 0x34), ([0x6D, 0x34, 0x12], .adcAbs 0x1234), ([0x71, 0x34], .adcIzy 0x34),
   ([0x75, 0x34], .adcZpx 0x34), ([0x79, 0x34, 0x12], .adcAby 0x1234),
   ([0x7D, 0x34, 0x12], .adcAbx 0x1234), ([0xC0, 0x34], .cpyImm 0x34), ([0xC1, 0x34], .cmpIzx 0x34),
   ([0xC4, 0x34], .cpyZp 0x34), ([0xC5, 0x34], .cmpZp 0x34), ([0xC9, 0x34], .cmpImm 0x34),
   ([0xCC, 0x34, 0x12], .cpyAbs 0x1234), ([0xCD, 0x34, 0x12], .cmpAbs 0x1234),
   ([0xD1, 0x34], .cmpIzy 0x34), ([0xD5, 0x34], .cmpZpx 0x34), ([0xD9, 0x34, 0x12], .cmpAby 0x1234),
   ([0xDD, 0x34, 0x12], .cmpAbx 0x1234), ([0xE0, 0x34], .cpxImm 0x34), ([0xE1, 0x34], .sbcIzx 0x34),
   ([0xE4, 0x34], .cpxZp 0x34), ([0xE5, 0x34], .sbcZp 0x34), ([0xE9, 0x34], .sbcImm 0x34),
   ([0xEC, 0x34, 0x12], .cpxAbs 0x1234), ([0xED, 0x34, 0x12], .sbcAbs 0x1234),
   ([0xF1, 0x34], .sbcIzy 0x34), ([0xF5, 0x34], .sbcZpx 0x34), ([0xF9, 0x34, 0x12], .sbcAby 0x1234),
   ([0xFD, 0x34, 0x12], .sbcAbx 0x1234)] = true := by decide

theorem test_decodes_incdec_shift_1 : decodes
  [([0x06, 0x34], .aslZp 0x34), ([0x0A], .aslAcc), ([0x0E, 0x34, 0x12], .aslAbs 0x1234),
   ([0x16, 0x34], .aslZpx 0x34), ([0x1E, 0x34, 0x12], .aslAbx 0x1234), ([0x26, 0x34], .rolZp 0x34),
   ([0x2A], .rolAcc), ([0x2E, 0x34, 0x12], .rolAbs 0x1234), ([0x36, 0x34], .rolZpx 0x34),
   ([0x3E, 0x34, 0x12], .rolAbx 0x1234), ([0x46, 0x34], .lsrZp 0x34), ([0x4A], .lsrAcc),
   ([0x4E, 0x34, 0x12], .lsrAbs 0x1234), ([0x56, 0x34], .lsrZpx 0x34),
   ([0x5E, 0x34, 0x12], .lsrAbx 0x1234), ([0x66, 0x34], .rorZp 0x34), ([0x6A], .rorAcc),
   ([0x6E, 0x34, 0x12], .rorAbs 0x1234), ([0x76, 0x34], .rorZpx 0x34),
   ([0x7E, 0x34, 0x12], .rorAbx 0x1234), ([0x88], .dey), ([0xC6, 0x34], .decZp 0x34), ([0xC8], .iny),
   ([0xCA], .dex), ([0xCE, 0x34, 0x12], .decAbs 0x1234), ([0xD6, 0x34], .decZpx 0x34),
   ([0xDE, 0x34, 0x12], .decAbx 0x1234), ([0xE6, 0x34], .incZp 0x34)] = true := by decide

theorem test_decodes_incdec_shift_2 : decodes
  [([0xE8], .inx), ([0xEE, 0x34, 0x12], .incAbs 0x1234), ([0xF6, 0x34], .incZpx 0x34),
   ([0xFE, 0x34, 0x12], .incAbx 0x1234)] = true := by decide

theorem test_decodes_jump_branch : decodes
  [([0x10, 0xFC], .bpl (-4)), ([0x20, 0x34, 0x12], .jsr 0x1234), ([0x30, 0xFC], .bmi (-4)),
   ([0x4C, 0x34, 0x12], .jmpAbs 0x1234), ([0x50, 0xFC], .bvc (-4)), ([0x60], .rts),
   ([0x6C, 0x34, 0x12], .jmpInd 0x1234), ([0x70, 0xFC], .bvs (-4)), ([0x90, 0xFC], .bcc (-4)),
   ([0xB0, 0xFC], .bcs (-4)), ([0xD0, 0xFC], .bne (-4)), ([0xF0, 0xFC], .beq (-4))] = true := by decide

theorem test_decodes_flags_system : decodes
  [([0x00], .brk), ([0x18], .clc), ([0x38], .sec), ([0x40], .rti), ([0x58], .cli), ([0x78], .sei),
   ([0xB8], .clv), ([0xD8], .cld), ([0xEA], .nop), ([0xF8], .sed)] = true := by decide

/-- Displacement bytes `$7F` and `$80` are +127 and -128 (R102). -/
theorem test_decodes_displacement_ends : decodes
  [([0x10, 0x7F], .bpl 127), ([0x30, 0x80], .bmi (-128)), ([0x50, 0x00], .bvc 0), ([0xD0, 0xFF], .bne (-1))]
    = true := by decide

/-- Undefined opcodes and a truncated instruction are rejected, each by its name (R112). -/
theorem test_decode_rejects :
    (match decode [0x02], decode [0xEB, 0x01], decode [0x6C, 0x34], decode [] with
      | .error (.undefinedOpcode 0x02), .error (.undefinedOpcode 0xEB), .error _, .error _ => true
      | _, _, _, _ => false) = true := by decide

/-- The table's numbering: byte k of the instruction is bits 8k+7 to 8k. -/
theorem test_decodeTableWord :
    decodeTableWord 24 0x12346C = some (.jmpInd 0x1234) ∧ decodeTableWord 16 0x80F0 = some (.beq (-128)) ∧
      decodeTableWord 8 0xEA = some .nop ∧ decodeTableWord 8 0xEB = none := by decide

/-! ## One instruction, one step (95_test_vectors.md part 2) -/

/-- Registers and status from `[A, X, Y, S, P, PC]`; no sequence due. -/
def cpuOf (r : List Nat) : Cpu :=
  let n (k : Nat) : Byte := BitVec.ofNat 8 (r.getD k 0)
  pulled
    { Cpu.powerOn with
      a := n 0, x := n 1, y := n 2, s := n 3, pc := BitVec.ofNat 16 (r.getD 5 0), resetPending := false }
    (n 4)

/-- The standard start state: NROM, these registers, this RAM, the program bytes at PC. -/
def start (prog : List Byte) (r : List Nat) (mem : Memory 8) : State :=
  placeBytes prog (BitVec.ofNat 16 (r.getD 5 0)) { State.reset with cpu := cpuOf r, ram := mem }

/-- The registers, status and count of a next state: `[A, X, Y, S, P, PC, cycles]`. -/
def view : Out → List Nat
  | .next t =>
    [t.cpu.a.toNat, t.cpu.x.toNat, t.cpu.y.toNat, t.cpu.s.toNat, (statusByte t.cpu false).toNat, t.cpu.pc.toNat,
     t.cpu.cycles]
  | _ => []

/-- Whether a next state's RAM holds these bytes. -/
def holds (o : Out) (cells : List (Nat × Byte)) : Bool :=
  match o with
  | .next t => cells.all (fun e => t.ram.read e.1 == e.2)
  | _ => false

/-- One step from the standard state with the given RAM ends in these registers and these bytes. -/
def check (prog : List Byte) (before : List Nat) (mem : Memory 8) (after : List Nat)
    (cells : List (Nat × Byte)) : Bool :=
  let o := step (start prog before mem)
  view o == after && holds o cells

/-! ### Addressing modes and page crossing (section 2.1) -/

theorem test_lda_zpx_wraps_in_page_0 :
    check [0xB5, 0xF0] [0x00, 0x20, 0x00, 0xFD, 0x24, 0x200] [(0x10, 0x33), (0x110, 0x44)]
      [0x33, 0x20, 0x00, 0xFD, 0x24, 0x202, 4] [] = true := by decide

theorem test_ldx_zpy_wraps_in_page_0 :
    check [0xB6, 0x10] [0x00, 0x00, 0xF5, 0xFD, 0x24, 0x200] [(0x05, 0x01)]
      [0x00, 0x01, 0xF5, 0xFD, 0x24, 0x202, 4] [] = true := by decide

theorem test_lda_abx_same_page :
    check [0xBD, 0xF0, 0x02] [0x00, 0x0F, 0x00, 0xFD, 0x24, 0x200] [(0x2FF, 0x66)]
      [0x66, 0x0F, 0x00, 0xFD, 0x24, 0x203, 4] [] = true := by decide

theorem test_lda_abx_crossed :
    check [0xBD, 0xF0, 0x02] [0x00, 0x10, 0x00, 0xFD, 0x24, 0x200] [(0x300, 0x77)]
      [0x77, 0x10, 0x00, 0xFD, 0x24, 0x203, 5] [] = true := by decide

theorem test_lda_aby_crossed :
    check [0xB9, 0xFF, 0x02] [0x00, 0x00, 0x01, 0xFD, 0x24, 0x200] [(0x300, 0x88)]
      [0x88, 0x00, 0x01, 0xFD, 0xA4, 0x203, 5] [] = true := by decide

theorem test_ldx_aby_crossed_zero :
    check [0xBE, 0xFF, 0x02] [0x00, 0x09, 0x01, 0xFD, 0x24, 0x200] []
      [0x00, 0x00, 0x01, 0xFD, 0x26, 0x203, 5] [] = true := by decide

theorem test_ldy_abx_crossed :
    check [0xBC, 0xFF, 0x02] [0x00, 0x01, 0x00, 0xFD, 0x24, 0x200] [(0x300, 0xFF)]
      [0x00, 0x01, 0xFF, 0xFD, 0xA4, 0x203, 5] [] = true := by decide

theorem test_lda_izx_pointer_wraps :
    check [0xA1, 0xFE] [0x00, 0x01, 0x00, 0xFD, 0x24, 0x200] [(0x00, 0x03), (0xFF, 0x34), (0x100, 0x07), (0x334, 0x99)]
      [0x99, 0x01, 0x00, 0xFD, 0xA4, 0x202, 6] [] = true := by decide

theorem test_lda_izy_crossed :
    check [0xB1, 0x10] [0x00, 0x00, 0x10, 0xFD, 0x24, 0x200] [(0x10, 0xF8), (0x11, 0x02), (0x308, 0xAB)]
      [0xAB, 0x00, 0x10, 0xFD, 0xA4, 0x202, 6] [] = true := by decide

theorem test_lda_izy_pointer_wraps :
    check [0xB1, 0xFF] [0x00, 0x00, 0x00, 0xFD, 0x24, 0x200] [(0x00, 0x03), (0xFF, 0x40), (0x100, 0x07), (0x340, 0xCD)]
      [0xCD, 0x00, 0x00, 0xFD, 0xA4, 0x202, 5] [] = true := by decide

theorem test_sta_abx_no_penalty :
    check [0x9D, 0xF0, 0x02] [0x5A, 0x10, 0x00, 0xFD, 0x24, 0x200] []
      [0x5A, 0x10, 0x00, 0xFD, 0x24, 0x203, 5] [(0x300, 0x5A)] = true := by decide

theorem test_sta_izy_no_penalty :
    check [0x91, 0x10] [0x5A, 0x00, 0x10, 0xFD, 0x24, 0x200] [(0x10, 0xF8), (0x11, 0x02)]
      [0x5A, 0x00, 0x10, 0xFD, 0x24, 0x202, 6] [(0x308, 0x5A)] = true := by decide

theorem test_inc_abx_no_penalty :
    check [0xFE, 0xF0, 0x02] [0x00, 0x10, 0x00, 0xFD, 0x24, 0x200] [(0x300, 0x7F)]
      [0x00, 0x10, 0x00, 0xFD, 0xA4, 0x203, 7] [(0x300, 0x80)] = true := by decide

theorem test_jmp_ind :
    check [0x6C, 0x10, 0x03] [0x00, 0x00, 0x00, 0xFD, 0x24, 0x200] [(0x310, 0x55), (0x311, 0x04)]
      [0x00, 0x00, 0x00, 0xFD, 0x24, 0x455, 5] [] = true := by decide

theorem test_jmp_ind_stays_in_page :
    check [0x6C, 0xFF, 0x03] [0x00, 0x00, 0x00, 0xFD, 0x24, 0x200] [(0x300, 0x04), (0x3FF, 0x55), (0x400, 0x07)]
      [0x00, 0x00, 0x00, 0xFD, 0x24, 0x455, 5] [] = true := by decide

/-! ### Load, store, transfer (section 2.2) -/

theorem test_lda_imm :
    (check [0xA9, 0x00] [0x55, 0x00, 0x00, 0xFD, 0x24, 0x200] []
      [0x00, 0x00, 0x00, 0xFD, 0x26, 0x202, 2] [] &&
    check [0xA9, 0x80] [0x00, 0x00, 0x00, 0xFD, 0x24, 0x200] []
      [0x80, 0x00, 0x00, 0xFD, 0xA4, 0x202, 2] []) = true := by decide

theorem test_lda_zp :
    check [0xA5, 0x10] [0x00, 0x00, 0x00, 0xFD, 0x24, 0x200] [(0x10, 0x7F)]
      [0x7F, 0x00, 0x00, 0xFD, 0x24, 0x202, 3] [] = true := by decide

theorem test_sta_abs_ram_mirror :
    check [0x8D, 0x00, 0x08] [0xEE, 0x00, 0x00, 0xFD, 0x24, 0x200] []
      [0xEE, 0x00, 0x00, 0xFD, 0x24, 0x203, 4] [(0x00, 0xEE)] = true := by decide

theorem test_stx_zpy_wraps :
    check [0x96, 0x10] [0x00, 0x42, 0xF0, 0xFD, 0x24, 0x200] []
      [0x00, 0x42, 0xF0, 0xFD, 0x24, 0x202, 4] [(0x00, 0x42)] = true := by decide

theorem test_sty_zpx_wraps :
    check [0x94, 0x10] [0x00, 0xFF, 0x43, 0xFD, 0x24, 0x200] []
      [0x00, 0xFF, 0x43, 0xFD, 0x24, 0x202, 4] [(0x0F, 0x43)] = true := by decide

theorem test_tax :
    check [0xAA] [0x00, 0x05, 0x00, 0xFD, 0x24, 0x200] []
      [0x00, 0x00, 0x00, 0xFD, 0x26, 0x201, 2] [] = true := by decide

theorem test_tay :
    check [0xA8] [0x80, 0x00, 0x00, 0xFD, 0x24, 0x200] []
      [0x80, 0x00, 0x80, 0xFD, 0xA4, 0x201, 2] [] = true := by decide

theorem test_txa :
    check [0x8A] [0x00, 0x7F, 0x00, 0xFD, 0xA6, 0x200] []
      [0x7F, 0x7F, 0x00, 0xFD, 0x24, 0x201, 2] [] = true := by decide

theorem test_tya :
    check [0x98] [0x01, 0x00, 0x00, 0xFD, 0x24, 0x200] []
      [0x00, 0x00, 0x00, 0xFD, 0x26, 0x201, 2] [] = true := by decide

theorem test_tsx :
    check [0xBA] [0x00, 0x00, 0x00, 0xFD, 0x24, 0x200] []
      [0x00, 0xFD, 0x00, 0xFD, 0xA4, 0x201, 2] [] = true := by decide

theorem test_txs_no_flags :
    check [0x9A] [0x00, 0x00, 0x00, 0xFD, 0x24, 0x200] []
      [0x00, 0x00, 0x00, 0x00, 0x24, 0x201, 2] [] = true := by decide

/-! ### Stack (section 2.3) -/

theorem test_pha :
    check [0x48] [0xAB, 0x00, 0x00, 0xFD, 0x24, 0x200] []
      [0xAB, 0x00, 0x00, 0xFC, 0x24, 0x201, 3] [(0x1FD, 0xAB)] = true := by decide

theorem test_pha_wraps_in_page_1 :
    check [0x48] [0xCD, 0x00, 0x00, 0x00, 0x24, 0x200] []
      [0xCD, 0x00, 0x00, 0xFF, 0x24, 0x201, 3] [(0x100, 0xCD)] = true := by decide

theorem test_php :
    (check [0x08] [0x00, 0x00, 0x00, 0xFD, 0x24, 0x200] []
      [0x00, 0x00, 0x00, 0xFC, 0x24, 0x201, 3] [(0x1FD, 0x34)] &&
    check [0x08] [0x00, 0x00, 0x00, 0xFD, 0xE7, 0x200] []
      [0x00, 0x00, 0x00, 0xFC, 0xE7, 0x201, 3] [(0x1FD, 0xF7)]) = true := by decide

theorem test_pla_wraps_in_page_1 :
    check [0x68] [0x05, 0x00, 0x00, 0xFF, 0x24, 0x200] []
      [0x00, 0x00, 0x00, 0x00, 0x26, 0x201, 4] [] = true := by decide

theorem test_pla :
    check [0x68] [0x00, 0x00, 0x00, 0xFC, 0x24, 0x200] [(0x1FD, 0x80)]
      [0x80, 0x00, 0x00, 0xFD, 0xA4, 0x201, 4] [] = true := by decide

theorem test_plp :
    (check [0x28] [0x00, 0x00, 0x00, 0xFC, 0x24, 0x200] [(0x1FD, 0xFF)]
      [0x00, 0x00, 0x00, 0xFD, 0xEF, 0x201, 4] [] &&
    check [0x28] [0x00, 0x00, 0x00, 0xFC, 0xE7, 0x200] []
      [0x00, 0x00, 0x00, 0xFD, 0x20, 0x201, 4] []) = true := by decide

/-! ### Logic, arithmetic, compare (section 2.4) -/

theorem test_adc_flags :
    (check [0x69, 0x01] [0x7F, 0x00, 0x00, 0xFD, 0x24, 0x200] []
      [0x80, 0x00, 0x00, 0xFD, 0xE4, 0x202, 2] [] &&
    check [0x69, 0xFF] [0x01, 0x00, 0x00, 0xFD, 0x25, 0x200] []
      [0x01, 0x00, 0x00, 0xFD, 0x25, 0x202, 2] [] &&
    check [0x69, 0x80] [0x80, 0x00, 0x00, 0xFD, 0x24, 0x200] []
      [0x00, 0x00, 0x00, 0xFD, 0x67, 0x202, 2] []) = true := by decide

theorem test_adc_ignores_d :
    check [0x69, 0x09] [0x09, 0x00, 0x00, 0xFD, 0x2C, 0x200] []
      [0x12, 0x00, 0x00, 0xFD, 0x2C, 0x202, 2] [] = true := by decide

theorem test_sbc_borrow :
    (check [0xE9, 0x01] [0x00, 0x00, 0x00, 0xFD, 0x25, 0x200] []
      [0xFF, 0x00, 0x00, 0xFD, 0xA4, 0x202, 2] [] &&
    check [0xE9, 0x00] [0x00, 0x00, 0x00, 0xFD, 0x24, 0x200] []
      [0xFF, 0x00, 0x00, 0xFD, 0xA4, 0x202, 2] []) = true := by decide

theorem test_sbc_overflow :
    (check [0xE9, 0x01] [0x80, 0x00, 0x00, 0xFD, 0x25, 0x200] []
      [0x7F, 0x00, 0x00, 0xFD, 0x65, 0x202, 2] [] &&
    check [0xE9, 0x7F] [0xFF, 0x00, 0x00, 0xFD, 0x25, 0x200] []
      [0x80, 0x00, 0x00, 0xFD, 0xA5, 0x202, 2] []) = true := by decide

theorem test_and_imm :
    check [0x29, 0x0F] [0xF0, 0x00, 0x00, 0xFD, 0x24, 0x200] []
      [0x00, 0x00, 0x00, 0xFD, 0x26, 0x202, 2] [] = true := by decide

theorem test_ora_imm :
    check [0x09, 0x80] [0x01, 0x00, 0x00, 0xFD, 0x24, 0x200] []
      [0x81, 0x00, 0x00, 0xFD, 0xA4, 0x202, 2] [] = true := by decide

theorem test_eor_imm :
    check [0x49, 0xFF] [0xFF, 0x00, 0x00, 0xFD, 0x24, 0x200] []
      [0x00, 0x00, 0x00, 0xFD, 0x26, 0x202, 2] [] = true := by decide

theorem test_cmp_imm :
    (check [0xC9, 0x10] [0x10, 0x00, 0x00, 0xFD, 0x24, 0x200] []
      [0x10, 0x00, 0x00, 0xFD, 0x27, 0x202, 2] [] &&
    check [0xC9, 0x11] [0x10, 0x00, 0x00, 0xFD, 0x24, 0x200] []
      [0x10, 0x00, 0x00, 0xFD, 0xA4, 0x202, 2] []) = true := by decide

theorem test_cmp_keeps_v :
    check [0xC9, 0x80] [0x00, 0x00, 0x00, 0xFD, 0x64, 0x200] []
      [0x00, 0x00, 0x00, 0xFD, 0xE4, 0x202, 2] [] = true := by decide

theorem test_cpx_imm :
    check [0xE0, 0xFF] [0x00, 0x00, 0x00, 0xFD, 0x24, 0x200] []
      [0x00, 0x00, 0x00, 0xFD, 0x24, 0x202, 2] [] = true := by decide

theorem test_cpy_zp :
    check [0xC4, 0x10] [0x00, 0x00, 0x80, 0xFD, 0x24, 0x200] [(0x10, 0x7F)]
      [0x00, 0x00, 0x80, 0xFD, 0x25, 0x202, 3] [] = true := by decide

theorem test_bit_zp :
    check [0x24, 0x10] [0x01, 0x00, 0x00, 0xFD, 0x24, 0x200] [(0x10, 0xC0)]
      [0x01, 0x00, 0x00, 0xFD, 0xE6, 0x202, 3] [] = true := by decide

theorem test_bit_abs :
    check [0x2C, 0x10, 0x03] [0xFF, 0x00, 0x00, 0xFD, 0xE4, 0x200] [(0x310, 0x3F)]
      [0xFF, 0x00, 0x00, 0xFD, 0x24, 0x203, 4] [] = true := by decide

/-! ### Increment, decrement, shift, rotate (section 2.5) -/

theorem test_inc_zp_wraps :
    check [0xE6, 0x10] [0x00, 0x00, 0x00, 0xFD, 0x24, 0x200] [(0x10, 0xFF)]
      [0x00, 0x00, 0x00, 0xFD, 0x26, 0x202, 5] [(0x10, 0x00)] = true := by decide

theorem test_dec_zp_wraps :
    check [0xC6, 0x10] [0x00, 0x00, 0x00, 0xFD, 0x24, 0x200] []
      [0x00, 0x00, 0x00, 0xFD, 0xA4, 0x202, 5] [(0x10, 0xFF)] = true := by decide

theorem test_dec_zpx :
    check [0xD6, 0x10] [0x00, 0x01, 0x00, 0xFD, 0x24, 0x200] [(0x11, 0x01)]
      [0x00, 0x01, 0x00, 0xFD, 0x26, 0x202, 6] [(0x11, 0x00)] = true := by decide

theorem test_inx :
    check [0xE8] [0x00, 0xFF, 0x00, 0xFD, 0x24, 0x200] []
      [0x00, 0x00, 0x00, 0xFD, 0x26, 0x201, 2] [] = true := by decide

theorem test_iny :
    check [0xC8] [0x00, 0x00, 0x7F, 0xFD, 0x24, 0x200] []
      [0x00, 0x00, 0x80, 0xFD, 0xA4, 0x201, 2] [] = true := by decide

theorem test_dex :
    check [0xCA] [0x00, 0x00, 0x00, 0xFD, 0x24, 0x200] []
      [0x00, 0xFF, 0x00, 0xFD, 0xA4, 0x201, 2] [] = true := by decide

theorem test_dey :
    check [0x88] [0x00, 0x00, 0x01, 0xFD, 0x24, 0x200] []
      [0x00, 0x00, 0x00, 0xFD, 0x26, 0x201, 2] [] = true := by decide

theorem test_asl_acc :
    check [0x0A] [0x81, 0x00, 0x00, 0xFD, 0x24, 0x200] []
      [0x02, 0x00, 0x00, 0xFD, 0x25, 0x201, 2] [] = true := by decide

theorem test_asl_zp :
    check [0x06, 0x10] [0x00, 0x00, 0x00, 0xFD, 0x24, 0x200] [(0x10, 0x40)]
      [0x00, 0x00, 0x00, 0xFD, 0xA4, 0x202, 5] [(0x10, 0x80)] = true := by decide

theorem test_lsr_acc :
    check [0x4A] [0x01, 0x00, 0x00, 0xFD, 0xA4, 0x200] []
      [0x00, 0x00, 0x00, 0xFD, 0x27, 0x201, 2] [] = true := by decide

theorem test_lsr_abs :
    check [0x4E, 0x10, 0x03] [0x00, 0x00, 0x00, 0xFD, 0x24, 0x200] [(0x310, 0xFE)]
      [0x00, 0x00, 0x00, 0xFD, 0x24, 0x203, 6] [(0x310, 0x7F)] = true := by decide

theorem test_rol_acc :
    check [0x2A] [0x80, 0x00, 0x00, 0xFD, 0x25, 0x200] []
      [0x01, 0x00, 0x00, 0xFD, 0x25, 0x201, 2] [] = true := by decide

theorem test_rol_zp :
    check [0x26, 0x10] [0x00, 0x00, 0x00, 0xFD, 0x24, 0x200] [(0x10, 0x40)]
      [0x00, 0x00, 0x00, 0xFD, 0xA4, 0x202, 5] [(0x10, 0x80)] = true := by decide

theorem test_ror_acc :
    check [0x6A] [0x01, 0x00, 0x00, 0xFD, 0x24, 0x200] []
      [0x00, 0x00, 0x00, 0xFD, 0x27, 0x201, 2] [] = true := by decide

theorem test_ror_zpx :
    check [0x76, 0x10] [0x00, 0x00, 0x00, 0xFD, 0x25, 0x200] []
      [0x00, 0x00, 0x00, 0xFD, 0xA4, 0x202, 6] [(0x10, 0x80)] = true := by decide

/-! ### Jumps, subroutines, branches (section 2.6) -/

theorem test_jmp_abs :
    check [0x4C, 0x34, 0x12] [0x00, 0x00, 0x00, 0xFD, 0x24, 0x200] []
      [0x00, 0x00, 0x00, 0xFD, 0x24, 0x1234, 3] [] = true := by decide

theorem test_jsr :
    check [0x20, 0x56, 0x04] [0x00, 0x00, 0x00, 0xFD, 0x24, 0x200] []
      [0x00, 0x00, 0x00, 0xFB, 0x24, 0x456, 6] [(0x1FD, 0x02), (0x1FC, 0x02)] = true := by decide

theorem test_rts :
    (check [0x60] [0x00, 0x00, 0x00, 0xFB, 0x24, 0x200] [(0x1FC, 0x02), (0x1FD, 0x02)]
      [0x00, 0x00, 0x00, 0xFD, 0x24, 0x203, 6] [] &&
    check [0x60] [0x00, 0x00, 0x00, 0xFB, 0x24, 0x200] [(0x1FC, 0xFF), (0x1FD, 0xFF)]
      [0x00, 0x00, 0x00, 0xFD, 0x24, 0x00, 6] []) = true := by decide

theorem test_bne :
    (check [0xD0, 0x05] [0x00, 0x00, 0x00, 0xFD, 0x26, 0x200] []
      [0x00, 0x00, 0x00, 0xFD, 0x26, 0x202, 2] [] &&
    check [0xD0, 0x05] [0x00, 0x00, 0x00, 0xFD, 0x24, 0x200] []
      [0x00, 0x00, 0x00, 0xFD, 0x24, 0x207, 3] []) = true := by decide

theorem test_beq_back_crossed :
    check [0xF0, 0xFC] [0x00, 0x00, 0x00, 0xFD, 0x26, 0x200] []
      [0x00, 0x00, 0x00, 0xFD, 0x26, 0x1FE, 4] [] = true := by decide

theorem test_bcc_forward_crossed :
    check [0x90, 0x7F] [0x00, 0x00, 0x00, 0xFD, 0x24, 0x2F0] []
      [0x00, 0x00, 0x00, 0xFD, 0x24, 0x371, 4] [] = true := by decide

theorem test_bcc_crossed_from_next_page :
    check [0x90, 0xFD] [0x00, 0x00, 0x00, 0xFD, 0x24, 0x2FE] []
      [0x00, 0x00, 0x00, 0xFD, 0x24, 0x2FD, 4] [] = true := by decide

theorem test_bcs_to_itself :
    check [0xB0, 0xFE] [0x00, 0x00, 0x00, 0xFD, 0x25, 0x210] []
      [0x00, 0x00, 0x00, 0xFD, 0x25, 0x210, 3] [] = true := by decide

theorem test_bmi :
    check [0x30, 0x10] [0x00, 0x00, 0x00, 0xFD, 0xA4, 0x200] []
      [0x00, 0x00, 0x00, 0xFD, 0xA4, 0x212, 3] [] = true := by decide

theorem test_bpl_not_taken :
    check [0x10, 0x10] [0x00, 0x00, 0x00, 0xFD, 0xA4, 0x200] []
      [0x00, 0x00, 0x00, 0xFD, 0xA4, 0x202, 2] [] = true := by decide

theorem test_bvc :
    check [0x50, 0x02] [0x00, 0x00, 0x00, 0xFD, 0x24, 0x200] []
      [0x00, 0x00, 0x00, 0xFD, 0x24, 0x204, 3] [] = true := by decide

theorem test_bvs_not_crossed :
    (check [0x70, 0x00] [0x00, 0x00, 0x00, 0xFD, 0x64, 0x2FD] []
      [0x00, 0x00, 0x00, 0xFD, 0x64, 0x2FF, 3] [] &&
    check [0x70, 0x00] [0x00, 0x00, 0x00, 0xFD, 0x64, 0x2FE] []
      [0x00, 0x00, 0x00, 0xFD, 0x64, 0x300, 3] []) = true := by decide

/-! ### Flags, NOP, BRK, RTI (section 2.7) -/

theorem test_clc :
    check [0x18] [0x00, 0x00, 0x00, 0xFD, 0x25, 0x200] []
      [0x00, 0x00, 0x00, 0xFD, 0x24, 0x201, 2] [] = true := by decide

theorem test_sec :
    check [0x38] [0x00, 0x00, 0x00, 0xFD, 0x24, 0x200] []
      [0x00, 0x00, 0x00, 0xFD, 0x25, 0x201, 2] [] = true := by decide

theorem test_cli :
    check [0x58] [0x00, 0x00, 0x00, 0xFD, 0x24, 0x200] []
      [0x00, 0x00, 0x00, 0xFD, 0x20, 0x201, 2] [] = true := by decide

theorem test_sei :
    check [0x78] [0x00, 0x00, 0x00, 0xFD, 0x20, 0x200] []
      [0x00, 0x00, 0x00, 0xFD, 0x24, 0x201, 2] [] = true := by decide

theorem test_clv :
    check [0xB8] [0x00, 0x00, 0x00, 0xFD, 0x64, 0x200] []
      [0x00, 0x00, 0x00, 0xFD, 0x24, 0x201, 2] [] = true := by decide

theorem test_cld :
    check [0xD8] [0x00, 0x00, 0x00, 0xFD, 0x2C, 0x200] []
      [0x00, 0x00, 0x00, 0xFD, 0x24, 0x201, 2] [] = true := by decide

theorem test_sed :
    check [0xF8] [0x00, 0x00, 0x00, 0xFD, 0x24, 0x200] []
      [0x00, 0x00, 0x00, 0xFD, 0x2C, 0x201, 2] [] = true := by decide

theorem test_nop :
    check [0xEA] [0x00, 0x00, 0x00, 0xFD, 0xE7, 0x200] []
      [0x00, 0x00, 0x00, 0xFD, 0xE7, 0x201, 2] [] = true := by decide

theorem test_rti :
    (check [0x40] [0x00, 0x00, 0x00, 0xFA, 0x24, 0x200] [(0x1FB, 0x34), (0x1FC, 0x02), (0x1FD, 0x80)]
      [0x00, 0x00, 0x00, 0xFD, 0x24, 0x8002, 6] [] &&
    check [0x40] [0x00, 0x00, 0x00, 0xFA, 0x24, 0x200] [(0x1FB, 0xC3), (0x1FC, 0x00), (0x1FD, 0x90)]
      [0x00, 0x00, 0x00, 0xFD, 0xE3, 0x9000, 6] []) = true := by decide

/-- A 32 KiB NROM image with these bytes at CPU addresses of `$8000-$FFFF`. -/
def nromWith (bytes : List (Nat × Byte)) : Cartridge :=
  { Cartridge.blank with
    prgBanks := 2
    prg := bytes.foldl (fun m e => m.write (e.1 - 0x8000) e.2) ([] : Memory 8) }

/-- The three vectors of section 2.12. -/
def vectors : Cartridge :=
  nromWith [(0xFFFA, 0x00), (0xFFFB, 0x90), (0xFFFC, 0x00), (0xFFFD, 0x80), (0xFFFE, 0x00), (0xFFFF, 0xA0)]

/-- These registers on that cartridge, with a program at PC. -/
def vectored (prog : List Byte) (r : List Nat) : State :=
  placeBytes prog (BitVec.ofNat 16 (r.getD 5 0)) { State.powerOn vectors with cpu := cpuOf r }

theorem test_brk :
    (
      let o := step (vectored [0x00, 0xFF] [0, 0, 0, 0xFD, 0xE3, 0x8000])
      view o == [0, 0, 0, 0xFA, 0xE7, 0xA000, 7] && holds o [(0x1FD, 0x80), (0x1FC, 0x02), (0x1FB, 0xF3)]) = true := by
  decide

theorem test_brk_wraps_in_page_1 :
    (
      let o := step (vectored [0x00] [0, 0, 0, 0x01, 0x24, 0x8000])
      view o == [0, 0, 0, 0xFE, 0x24, 0xA000, 7] && holds o [(0x101, 0x80), (0x100, 0x02), (0x1FF, 0x34)]) = true := by
  decide

/-- Undefined opcodes stop the machine, `$EB` and `$1A` too (R112). -/
theorem test_undefined_opcodes :
    ([0x02, 0xEB, 0x1A].all (fun op : Byte => match step (start [op, 0x01] [5, 0, 0, 0xFD, 0x24, 0x200] []) with
      | .fault (.undefinedOpcode o pc) => o == op && pc == 0x200
      | _ => false)) = true := by decide

/-! ### Interrupt sequences (section 2.12) -/

theorem test_nmi :
    (
      let s := vectored [] [0, 0, 0, 0xFD, 0x24, 0xC123]
      let o := step { s with cpu := { s.cpu with nmiPending := true } }
      view o == [0, 0, 0, 0xFA, 0x24, 0x9000, 7] && holds o [(0x1FD, 0xC1), (0x1FC, 0x23), (0x1FB, 0x24)]) = true := by
  decide

theorem test_irq :
    (
      let s := vectored [] [0, 0, 0, 0xFD, 0x23, 0x8123]
      let o := step { s with ports := { s.ports with irqLine := true } }
      view o == [0, 0, 0, 0xFA, 0x27, 0xA000, 7] && holds o [(0x1FD, 0x81), (0x1FC, 0x23), (0x1FB, 0x23)]) = true := by
  decide

theorem test_irq_masked :
    (
      let s := vectored [0xEA] [0, 0, 0, 0xFD, 0x24, 0x8123]
      view (step { s with ports := { s.ports with irqLine := true } }) == [0, 0, 0, 0xFD, 0x24, 0x8124, 2]) = true := by
  decide

/-- A machine with much to reset. -/
def beforeReset : State :=
  let s := vectored [] [0x55, 0, 0, 0x80, 0xE3, 0x1234]
  { s with
    cpu := { s.cpu with halted := true, nmiPending := true, resetPending := true }
    ppu := { s.ppu with ctrl := 0x80, mask := 0x1E, v := 0x1234, t := 0x7FFF, w := true, vblank := true, scanline := 245 } }

theorem test_reset :
    (match step beforeReset with
      | .next t => view (.next t) == [0x55, 0, 0, 0x7D, 0xE7, 0x8000, 7] && !t.cpu.halted && !t.cpu.nmiPending &&
          t.ppu.ctrl == 0 && t.ppu.mask == 0 && t.ppu.t == 0 && !t.ppu.w && t.ppu.v == 0x1234 && t.ppu.vblank &&
          t.ram == []
      | _ => false) = true := by decide

theorem test_reset_at_power_on :
    view (step (State.powerOn vectors)) = [0, 0, 0, 0xFD, 0x24, 0x8000, 7] := by decide

/-! ### PPU ports (section 2.8) -/

/-- Write a list of (address, byte) pairs. -/
def writes (l : List (Addr × Byte)) (s : State) : State := l.foldl (fun t e => memWrite e.1 e.2 t) s

/-- The state with this PPU. -/
def withPpu (p : Ppu) : State := { State.reset with ppu := p }

theorem test_V1_scroll_and_address :
    (
      let p := (writes [(0x2000, 0x03), (0x2005, 0x7D), (0x2005, 0x5E)] State.reset).ppu
      let q := (writes [(0x2006, 0x3D), (0x2006, 0xF0)] (withPpu p)).ppu
      p.t == 0x6D6F && p.fineX == 5 && !p.w && p.v == 0 && q.t == 0x3DF0 && q.v == 0x3DF0 && q.ioLatch == 0xF0) = true := by
  decide

theorem test_V1b_address_clears_bit_14 :
    (writes [(0x2006, 0xFF), (0x2006, 0x00)] (withPpu { Ppu.powerOn with t := 0x7FFF })).ppu.v = 0x3F00 := by decide

theorem test_V2_status_read :
    (
      let s := withPpu { Ppu.powerOn with vblank := true, spr0Hit := true, ioLatch := 0x1F, w := true }
      let r := memRead 0x2002 s
      r.1 == 0xDF && !r.2.ppu.w && !r.2.ppu.vblank && r.2.ppu.spr0Hit && (memRead 0x2002 r.2).1 == 0x5F) = true := by
  decide

theorem test_V3_data_reads_are_buffered :
    (
      let s := withPpu { Ppu.powerOn with readBuffer := 0x11 }
      let s := { s with board := { s.board with chrRam := [(0, 0xAA), (1, 0xBB)] } }
      let r1 := memRead 0x2007 s
      let r2 := memRead 0x2007 r1.2
      let r3 := memRead 0x2007 r2.2
      r1.1 == 0x11 && r2.1 == 0xAA && r3.1 == 0xBB && r3.2.ppu.v == 3 && r3.2.ppu.readBuffer == 0) = true := by decide

theorem test_V4_data_writes :
    (
      let p := (writes [(0x2007, 0x55)] (withPpu { Ppu.powerOn with ctrl := 0x04, v := 0x23E0 })).ppu
      let q := (writes [(0x2007, 0x66)] (withPpu { Ppu.powerOn with v := 0x7FFF })).ppu
      p.ntRam.read 0x3E0 == 0x55 && p.v == 0x2400 && q.palette.read 0x1F == 0x26 && q.v == 0) = true := by decide

theorem test_V5_palette_read_is_direct :
    (
      let s := withPpu { Ppu.powerOn with palette := [(1, 0x15)], ntRam := [(0x701, 0x77)], v := 0x3F01, readBuffer := 0x99 }
      let s := { s with board := { s.board with cart := { s.board.cart with hdrMirroring := .vertical } } }
      let r := memRead 0x2007 s
      r.1 == 0x15 && r.2.ppu.readBuffer == 0x77 && r.2.ppu.v == 0x3F02) = true := by decide

theorem test_V6_palette_mirrors :
    (
      let put (a : Vram) (v : Byte) (p : Ppu) : Ppu := (writes [(0x2007, v)] (withPpu { p with v := a })).ppu
      let p := put 0x3FFF 0x01 (put 0x3F1F 0x7C (put 0x3F14 0x22 (put 0x3F04 0x21 (put 0x3F10 0xFF Ppu.powerOn))))
      p.palette.read 0 == 0x3F && p.palette.read 4 == 0x22 && p.palette.read 0x1F == 0x01 &&
        (memRead 0x2007 (withPpu { p with v := 0x3F10 })).1 == 0x3F) = true := by decide

theorem test_V7_nmi_enable_edges :
    (
      let s := writes [(0x2000, 0x80)] (withPpu { Ppu.powerOn with vblank := true })
      let clear (t : State) : State := { t with cpu := { t.cpu with nmiPending := false } }
      s.cpu.nmiPending && !(writes [(0x2000, 0x80)] (clear s)).cpu.nmiPending &&
        (writes [(0x2000, 0x00), (0x2000, 0x80)] (clear s)).cpu.nmiPending &&
        !(writes [(0x2000, 0x80)] (memRead 0x2002 (clear s)).2).cpu.nmiPending) = true := by decide

theorem test_V8_oam_port :
    (
      let s := writes [(0x2003, 0xFE), (0x2004, 0x11), (0x2004, 0x22), (0x2004, 0x33)] State.reset
      let r := memRead 0x2004 (writes [(0x2003, 0xFF)] s)
      let drawing (y : Nat) : State :=
        writes [(0x2004, 0x99)] { r.2 with ppu := { r.2.ppu with mask := 0x08, scanline := y } }
      s.ppu.oam == [(0, 0x33), (0xFE, 0x11), (0xFF, 0x22)] && s.ppu.oamAddr == 1 && r.1 == 0x22 &&
        r.2.ppu.oamAddr == 0xFF && (drawing 100).ppu.oam.read 0xFF == 0x22 && (drawing 100).ppu.oamAddr == 0xFF &&
        (drawing 241).ppu.oam.read 0xFF == 0x99 && (drawing 241).ppu.oamAddr == 0) = true := by decide

theorem test_V9_latch_reads :
    (
      let s := writes [(0x2001, 0x1E)] State.reset
      (memRead 0x2000 s).1 == 0x1E && (memRead 0x2005 s).1 == 0x1E && (memRead 0x2005 s).2 == s) = true := by decide

theorem test_nametable_mirrors :
    ([0x2000, 0x2400, 0x2800, 0x2C00, 0x27FF, 0x2C05, 0x3EFF].map (fun a : PpuAddr =>
      [ntIndex .horizontal a, ntIndex .vertical a, ntIndex .singleLo a, ntIndex .singleHi a])) =
      [[0, 0, 0, 0x400], [0, 0x400, 0, 0x400], [0x400, 0, 0, 0x400], [0x400, 0x400, 0, 0x400],
       [0x3FF, 0x7FF, 0x3FF, 0x7FF], [0x405, 0x405, 5, 0x405], [0x6FF, 0x6FF, 0x2FF, 0x6FF]] := by decide

/-! ### The renderer (section 2.9) -/

theorem test_B2_scroll_corners :
    [incFineY 0x73A0, incFineY 0x73E5, incFineY 0x7000, incFineY 0x2000, incCoarseX 0x001F, incCoarseX 0x041F,
      incCoarseX 0x0005] = [0x0800, 0x0005, 0x0020, 0x3000, 0x0400, 0x0000, 0x0006] := by decide

/-- The addresses and attribute bits of the first and second tile of B1. -/
theorem test_B1_background_addresses :
    (
      let p : Ppu := { Ppu.powerOn with ctrl := 0x10, v := 0x24A3, ntByte := 0x24 }
      let q : Ppu := { p with v := 0x24A4, ntByte := 0x25 }
      p.ntAddr == 0x24A3 && p.atAddr == 0x27C8 && p.atSelect 0xE4 == 1 && p.patAddr == 0x1242 &&
        q.ntAddr == 0x24A4 && q.atAddr == 0x27C9 && q.atSelect 0x1B == 3 && q.patAddr == 0x1252) = true := by decide

/-- Column 0 of B1: tile `$24` pixel 3, value 3, palette 1, colour index 7. -/
theorem test_B1_first_pixel :
    (
      let p : Ppu := { Ppu.powerOn with mask := 0x0A, fineX := 3, bgLo := 0xB0FF, bgHi := 0x7000, atLo := 0xFF }
      pixelIndex (p.bgPixel 0) p.bgPalette (p.spritePixel 0)) = 7 := by decide

theorem test_S1_sprite_pattern_addresses :
    (
      let at' (ctrl : Byte) (line : Nat) (tile attr : Byte) : PpuAddr :=
        Ppu.spritePatAddr line 47 tile attr { Ppu.powerOn with ctrl := ctrl }
      [at' 0x08 50 0x42 0x00, at' 0x08 50 0x42 0x80, at' 0x20 58 0x43 0x00, at' 0x20 58 0x43 0x80,
        at' 0x28 47 0x42 0x00, at' 0x20 62 0x42 0x80]) =
      [0x1423, 0x1424, 0x1433, 0x1424, 0x0420, 0x0420] := by decide

/-- Sprite 1 of S3 in slot 1: read at phases 5 and 7, flipped (columns 126 and 127 have values 1 and 3),
and slot 2 empty (R319). -/
theorem test_S3_unit_loads :
    (
      let b : Board := { State.reset.board with chrRam := [(0x30, 0xC0), (0x38, 0x80)] }
      let p : Ppu :=
        { Ppu.powerOn with
          mask := 0x1E, scanline := 9, dot := 270, secCount := 2, unitsHaveSpr0 := true
          secOam := [(4, 9), (5, 3), (6, 0x60), (7, 120)]
          units := List.replicate 8 ⟨0xFF, 0xFF, 0xFF, 0xFF⟩ }
      let q := p.tick b
      let r := Ppu.tick b { q with dot := 272 }
      let t := Ppu.tick b { r with dot := 280 }
      q.tmpLo == 0xC0 && q.units == p.units && r.units == p.units.set 1 ⟨0x03, 0x01, 0x60, 120⟩ &&
        t.units == r.units.set 2 ⟨0, 0, 0, 0⟩ && t.unitsHaveSpr0) = true := by decide

/-- Nine sprites on a line, numbers 2 to 10: eight found, overflow set (S2). -/
theorem test_S2_nine_sprites :
    (
      let oam : Memory 8 := (List.range 9).flatMap (fun k => [(8 + 4 * k, 49), (9 + 4 * k, 2), (11 + 4 * k, BitVec.ofNat 8 (16 + 8 * k))])
      let p := Ppu.evaluateSprites 49 { Ppu.powerOn with oam := oam }
      p.secCount == 8 && p.sprOverflow && !p.secHasSpr0 && p.secOam.read 31 == 72) = true := by decide

/-! ### Mappers, controllers, DMA (sections 2.10 and 2.11) -/

/-- MMC1 with eight PRG banks; byte 0 of bank `k` is `$B0 + k`. -/
def mmc1Machine : State :=
  State.powerOn
    { Cartridge.blank with
      mapper := .mmc1, prgBanks := 8
      prg := (List.range 8).map (fun k => (k * 0x4000, BitVec.ofNat 8 (0xB0 + k))) }

theorem test_M0_power_on :
    mmc1Machine.board.mirroring = .singleLo ∧ busByte 0x8000 mmc1Machine = 0xB0 ∧
      busByte 0xC000 mmc1Machine = 0xB7 := by decide

theorem test_M1_control :
    (
      let s := writes [(0x8000, 0), (0x8000, 1), (0x8000, 1), (0x8000, 1)] mmc1Machine
      let t := writes [(0x8000, 0)] s
      s.board.mmc1.shift == 0x1C && t.board.mmc1.control == 0x0E && t.board.mmc1.shift == 0 &&
        t.board.mmc1.count == 0 && t.board.mirroring == .vertical) = true := by decide

theorem test_M2_only_the_fifth_address_counts :
    (
      let s := writes [(0x8000, 1), (0xFFFF, 0), (0x9000, 1), (0xA000, 0), (0xE000, 0)] mmc1Machine
      s.board.mmc1.prg == 5 && s.board.mmc1.control == 0x0C && busByte 0x8000 s == 0xB5 &&
        busByte 0xC000 s == 0xB7) = true := by decide

theorem test_M3_reset_write :
    (
      let s := writes [(0xE000, 1), (0xE000, 1)] mmc1Machine
      let t := writes [(0x8000, 0x80)] s
      s.board.mmc1.shift == 0x18 && s.board.mmc1.count == 2 && t.board.mmc1.shift == 0 &&
        t.board.mmc1.count == 0 && t.board.mmc1.control == 0x0C) = true := by decide

/-- M5 to M9: control, prg, and the first byte of each half. -/
theorem test_M5_to_M9_prg_modes :
    ([(0x00, 0x05), (0x04, 0x04), (0x08, 0x05), (0x0C, 0x05), (0x0C, 0x1D)].map (fun e : BitVec 5 × BitVec 5 =>
      let b := { mmc1Machine.board with mmc1 := { Mmc1.powerOn with control := e.1, prg := e.2 } }
      (b.cpuRead 0x8000, b.cpuRead 0xC000))) =
      [(0xB4, 0xB5), (0xB4, 0xB5), (0xB0, 0xB5), (0xB5, 0xB7), (0xB5, 0xB7)] := by decide

theorem test_M10_prg_ram :
    (
      let s := writes [(0x6000, 0x5A), (0x7FFF, 0xA5)] mmc1Machine
      busByte 0x6000 s == 0x5A && busByte 0x7FFF s == 0xA5 && busByte 0x5000 s == 0) = true := by decide

theorem test_nrom_mirrors_one_bank :
    (
      let s := State.powerOn { Cartridge.blank with prg := [(0, 0x11), (0x3FFF, 0x22)] }
      [0x8000, 0xBFFF, 0xC000, 0xFFFF, 0x6000].map (fun a => busByte a s) == [0x11, 0x22, 0x11, 0x22, 0] &&
        writes [(0x8000, 0x99)] s == s) = true := by decide

/-- Read a port so many times: the bits, and the state. -/
def readOut (a : Addr) : Nat → State → List Byte × State
  | 0, s => ([], s)
  | n + 1, s => ((memRead a s).1 :: (readOut a n (memRead a s).2).1, (readOut a n (memRead a s).2).2)

theorem test_controllers :
    (
      let s := { State.reset with ports := { State.reset.ports with buttons0 := 0x89, buttons1 := 0x02 } }
      let on := writes [(0x4016, 0x01)] s
      let off := writes [(0x4016, 0x00)] on
      let r0 := readOut 0x4016 10 off
      let r1 := readOut 0x4017 3 r0.2
      (readOut 0x4016 3 on).1 == [1, 1, 1] && (readOut 0x4017 2 on).1 == [0, 0] &&
        r0.1 == [1, 0, 0, 1, 0, 0, 0, 1, 1, 1] && r1.1 == [0, 1, 0] && r1.2.ctl.shift0 == 0xFF &&
        r1.2.ctl.shift1 == 0xE0 && (writes [(0x4016, 0xFE)] r1.2).ctl == ⟨0x89, 0x02, false⟩) = true := by decide

/-- OAM DMA from page 2 to OAMADDR `$10`, begun at cycle 100 and 101 (the instruction's own 4 included). -/
theorem test_oam_dma :
    (
      let s : State :=
        { State.reset with
          cpu := { cpuOf [2, 0, 0, 0xFD, 0x24, 0x0600] with cyc := 100, cycles := 4 }
          ram := [(0x201, 0x01), (0x2F0, 0xF0), (0x2FF, 0xFF)]
          ppu := { Ppu.powerOn with oamAddr := 0x10 } }
      let t := memWrite 0x4014 2 s
      let u := memWrite 0x4014 2 { s with cpu := { s.cpu with cyc := 101 } }
      t.cpu.cycles == 517 && u.cpu.cycles == 518 && t.ppu.oam.read 0x11 == 1 && t.ppu.oam.read 0x0F == 0xFF &&
        t.ppu.oam.read 0 == 0xF0 && t.ppu.oamAddr == 0x10) = true := by decide +kernel

/-! ### The trace and the host's two questions -/

/-- The line the spec fills in for the first instruction of its scenario 1 (section 1.3, R440). -/
theorem test_trace_line :
    (traceLine
        { State.powerOn (nromWith [(0xC000, 0x4C), (0xC001, 0xF5), (0xC002, 0xC5)]) with
          cpu := cpuOf [0, 0, 0, 0xFD, 0x24, 0xC000], ppu := { Ppu.powerOn with dot := 21 } }).map TraceLine.text =
      some "C000 4C F5 C5  JMP $C5F5  A:00 X:00 Y:00 P:24 SP:FD | PPU: L:0 CYC:21" := by decide

/-- A placed word is the next instruction, from reset and where PC points outside memory. -/
theorem test_withFetchWord :
    view (step (State.reset.withFetchWord 16 0x80A9)) = [0x80, 0, 0, 0, 0xA0, 2, 2] ∧
      view (step (State.withFetchWord { State.reset with cpu := cpuOf [0, 0, 0, 0xFD, 0x24, 0x4014] } 24 0x12344C)) =
        [0, 0, 0, 0xFD, 0x24, 0x1234, 3] := by decide

/-! ## Witnesses: for each obligation with hypotheses, values that meet them, at their boundaries -/

/-- A state in which an instruction, LDA $F0,X, is fetched. -/
def base : State := start [0xB5, 0xF0] [0, 0x20, 0, 0xFD, 0x24, 0x200] [(0x10, 0x33)]

/-- `base` with PC elsewhere. -/
def baseAt (pc : Addr) : State := { base with cpu := { base.cpu with pc := pc } }

/-- Whether an outcome is a next state. -/
def isNext : Out → Bool
  | .next _ => true
  | _ => false

theorem next_of_isNext {o : Out} (h : isNext o = true) : ∃ t, o = .next t := by
  cases o with
  | next t => exact ⟨t, rfl⟩
  | fault f => cases h
  | refused r => cases h

theorem baseAt_fetchDue (pc : Addr) : (baseAt pc).fetchDue := ⟨rfl, rfl, rfl, rfl, Or.inl rfl⟩

theorem witness_DecodeOfEncodeIsTheInstruction :
    (Instr.beq (-128)).wellFormed = true ∧ (Instr.beq 127).wellFormed = true ∧
      (Instr.adcAbx 0xFFFF).wellFormed = true := by decide

theorem witness_DecoderAcceptsExactlyTheEncodings :
    ∃ i rest, decode [0x6C, 0x34, 0x12, 0xEA] = .ok (i, rest) := ⟨.jmpInd 0x1234, [0xEA], rfl⟩

/-- Clause 1, an instruction in RAM. -/
theorem witness_StepRunsTheDecodedInstruction :
    (baseAt 0x200).fetchDue ∧ (Instr.ldaZpx 0xF0).wellFormed = true ∧
      ∀ k, k < (encode (.ldaZpx 0xF0)).length →
        isMemory (baseAt 0x200).board ((baseAt 0x200).cpu.pc + BitVec.ofNat 16 k) = true ∧
          busByte ((baseAt 0x200).cpu.pc + BitVec.ofNat 16 k) (baseAt 0x200) = (encode (.ldaZpx 0xF0)).getD k 0 :=
  ⟨baseAt_fetchDue _, by decide, by decide⟩

/-- Clause 1, an instruction whose operand byte is past the top of the address space. -/
theorem witness_StepRunsTheDecodedInstruction_wraps :
    let s : State := { State.powerOn vectors with cpu := cpuOf [0, 0, 0, 0xFD, 0x24, 0xFFFF] }
    s.fetchDue ∧ (Instr.ldyImm 0).wellFormed = true ∧
      ∀ k, k < (encode (.ldyImm 0)).length →
        isMemory s.board (s.cpu.pc + BitVec.ofNat 16 k) = true ∧
          busByte (s.cpu.pc + BitVec.ofNat 16 k) s = (encode (.ldyImm 0)).getD k 0 :=
  ⟨⟨rfl, rfl, rfl, rfl, Or.inl rfl⟩, by decide, by decide⟩

/-- Clause 2, a fetch from a PPU port. -/
theorem witness_StepRunsTheDecodedInstruction_port :
    (baseAt 0x2000).fetchDue ∧ decode (fetchInstr (baseAt 0x2000)).1 = .ok (.brk, []) :=
  ⟨baseAt_fetchDue _, rfl⟩

/-- `base`, halted. -/
def haltedBase : State := { base with cpu := { base.cpu with halted := true, nmiPending := true } }

theorem witness_StepStopsExactlyOnHaltAndUndefinedOpcode :
    (haltedBase.ports.resetLine = false ∧ haltedBase.cpu.resetPending = false ∧ haltedBase.cpu.halted = true) ∧
      (
        let s := start [0x02] [0, 0, 0, 0xFD, 0x24, 0x200] []
        s.fetchDue ∧ busByte s.cpu.pc s ∈ undefinedOpcodes) ∧
      (¬ (base.ports.resetLine = false ∧ base.cpu.resetPending = false ∧ base.cpu.halted = true) ∧
        ¬ (base.fetchDue ∧ busByte base.cpu.pc base ∈ undefinedOpcodes)) :=
  ⟨by decide, ⟨⟨rfl, rfl, rfl, rfl, Or.inl rfl⟩, by decide⟩, by decide,
    fun h => absurd h.2 (by decide)⟩

/-- `base` with an NMI pending, and with the interrupt line high and I clear. -/
def nmiBase : State := { base with cpu := { base.cpu with nmiPending := true } }
/-- See `nmiBase`. -/
def irqBase : State :=
  { base with cpu := { base.cpu with i := false }, ports := { base.ports with irqLine := true } }

theorem witness_StepSamplesResetThenNmiThenIrq :
    (haltedBase.ports.resetLine = true ∨ State.reset.cpu.resetPending = true) ∧
      (nmiBase.ports.resetLine = false ∧ nmiBase.cpu.resetPending = false ∧ nmiBase.cpu.halted = false ∧
        nmiBase.cpu.nmiPending = true) ∧
      (irqBase.ports.resetLine = false ∧ irqBase.cpu.resetPending = false ∧ irqBase.cpu.halted = false ∧
        irqBase.cpu.nmiPending = false ∧ irqBase.ports.irqLine = true ∧ irqBase.cpu.i = false) := by decide

theorem witness_RtiUndoesInterruptEntry :
    (nmiVector = nmiVector ∨ nmiVector = irqVector) ∧ (irqVector = nmiVector ∨ irqVector = irqVector) := by decide

theorem witness_PowerOnStateAndInvariant :
    Cartridge.blank.wf = true ∧ vectors.wf = true ∧
      ({ vectors with mapper := .mmc1, chrBanks := 1, chr := [(8191, 1)] } : Cartridge).wf = true := by decide

theorem witness_EnablingNmiDuringVblankRaisesNmi :
    isPort 0x2000 0 ∧ isPort 0x3FF8 0 ∧ (withPpu { Ppu.powerOn with vblank := true }).ppu.vblank = true :=
  ⟨⟨by decide, by decide, by decide⟩, ⟨by decide, by decide, by decide⟩, rfl⟩

theorem witness_LoadsPutTheOperandInTheRegister :
    (⟨.ldaIzy 0x10, 5, true, .mem (.izy 0x10)⟩ : ReadForm) ∈ ldaForms 0x10 0 ∧
      (⟨.ldxZpy 0xFF, 4, false, .mem (.zpy 0xFF)⟩ : ReadForm) ∈ ldxForms 0xFF 0 ∧
      (⟨.ldyAbx 0xFFFF, 4, true, .mem (.abx 0xFFFF)⟩ : ReadForm) ∈ ldyForms 0 0xFFFF := by decide

/-- A store to RAM, to OAM by DMA, and to a port that stores nothing. -/
theorem witness_StoresWriteOneByteAndChangeNoFlag :
    (⟨.staIzx 1, 6, .izx 1, Cpu.a⟩ : StoreForm) ∈ storeForms 1 0 ∧
      ¬ storesTo 0x1FFF base (.ram 0) ∧ storesTo 0x1FFF base (.ram 0x7FF) ∧ ¬ storesTo 0x4014 base (.ram 0) ∧
      ¬ storesTo 0x3FFD base (.oam 0) := by
  refine ⟨by simp [storeForms], ?_, ?_, ?_, ?_⟩ <;> simp [storesTo, ramCell, portOf]

/-- For AdcAddsWithCarryInBinary, SbcSubtractsWithBorrowInBinary, LogicWritesTheAccumulator,
ComparesSetCarryZeroNegative and BitTestsTheOperand. -/
theorem witness_AluForms :
    (⟨.adcIzx 0x10, 6, false, .mem (.izx 0x10)⟩ : ReadForm) ∈ adcForms 0x10 0 ∧
      (⟨.sbcAby 0xFFFF, 4, true, .mem (.aby 0xFFFF)⟩ : ReadForm) ∈ sbcForms 0 0xFFFF ∧
      (⟨.andImm 0, 2, false, .imm 0⟩ : ReadForm) ∈ andForms 0 0 ∧
      (⟨.oraZp 0xFF, 3, false, .mem (.zp 0xFF)⟩ : ReadForm) ∈ oraForms 0xFF 0 ∧
      (⟨.eorZpx 0xFF, 4, false, .mem (.zpx 0xFF)⟩ : ReadForm) ∈ eorForms 0xFF 0 ∧
      (⟨.cmpAbs 7, 4, false, .mem (.abs 7)⟩ : ReadForm) ∈ cmpForms 0 7 ∧
      (⟨.cpxImm 1, 2, false, .imm 1⟩ : ReadForm) ∈ cpxForms 1 0 ∧
      (⟨.cpyZp 1, 3, false, .mem (.zp 1)⟩ : ReadForm) ∈ cpyForms 1 0 ∧
      (⟨.bitAbs 7, 4, false, .mem (.abs 7)⟩ : ReadForm) ∈ bitForms 0 7 := by decide

/-- For IncrementsAndDecrementsStepByOne and ShiftsMoveOneBit. -/
theorem witness_IncrementsAndShifts :
    (⟨.incZp 1, 5, .mem (.zp 1)⟩ : ModifyForm) ∈ incForms 1 0 ∧
      (⟨.decAbx 2, 7, .mem (.abx 2)⟩ : ModifyForm) ∈ decForms 1 2 ∧
      (⟨.aslAcc, 2, .acc⟩ : ModifyForm) ∈ aslForms 1 2 ∧ (⟨.lsrZpx 1, 6, .mem (.zpx 1)⟩ : ModifyForm) ∈ lsrForms 1 2 ∧
      (⟨.rolAbs 2, 6, .mem (.abs 2)⟩ : ModifyForm) ∈ rolForms 1 2 ∧ (⟨.rorAcc, 2, .acc⟩ : ModifyForm) ∈ rorForms 1 2 := by
  decide

/-- A read-modify-write of RAM, and the cells it leaves. -/
theorem witness_ReadModifyWriteFrame :
    (⟨.rorAbx 0xFFFF, 7, .mem (.abx 0xFFFF)⟩ : ModifyForm) ∈ memoryModifyForms 1 0xFFFF ∧
      (AddrMode.abx 0xFFFF).ea base = 0x1F ∧
      ¬ storesTo ((AddrMode.abx 0xFFFF).ea base) (afterRead ((AddrMode.abx 0xFFFF).ea base) base) (.ram 0x20) := by
  have h : (AddrMode.abx 0xFFFF).ea base = 0x1F := by decide
  refine ⟨by decide, h, ?_⟩
  rw [h]
  simp [storesTo, ramCell]

theorem witness_BranchesMovePcOnTheirCondition :
    (Instr.bcc, fun c : Cpu => !c.c) ∈ branches ∧ (Instr.bvs, fun c : Cpu => c.v) ∈ branches := by
  simp [branches]

theorem witness_CliAndSeiActAtTheNextBoundary :
    irqBase.ports.resetLine = false ∧ irqBase.cpu.resetPending = false ∧ irqBase.cpu.halted = false ∧
      irqBase.cpu.nmiPending = false ∧ irqBase.ports.irqLine = true := by decide

/-- The last byte of RAM in its last image, the first and last port addresses, the ends of the APU range. -/
theorem witness_MirrorsAndApuStub :
    (0x7FF < 0x800 ∧ (3 : Nat) < 4) ∧ isPort 0x2000 0 ∧ isPort 0x3FFF 7 ∧
      (0x4000 ≤ (0x4000 : Addr).toNat ∧ (0x4000 : Addr).toNat ≤ 0x4015 ∧ 0x4000 ≤ (0x4017 : Addr).toNat ∧
        (0x4017 : Addr).toNat ≤ 0x4017 ∧ (0x4017 : Addr).toNat ≠ 0x4014 ∧ (0x4017 : Addr).toNat ≠ 0x4016) ∧
      ∃ t, step base = .next t :=
  ⟨by decide, ⟨by decide, by decide, by decide⟩, ⟨by decide, by decide, by decide⟩, by decide,
    next_of_isNext (by decide)⟩

/-- A PPU at a raster position with PPUMASK and frame parity. -/
def ppuAt (line dot : Nat) (mask : Byte) (odd : Bool) : Ppu :=
  { Ppu.powerOn with scanline := line, dot := dot, mask := mask, oddFrame := odd }

/-- Each port once, at an end of its range where it has one. -/
theorem witness_BusReadsByRange :
    (0x1FFF : Addr).toNat < 0x2000 ∧
      (isPort 0x2000 0 ∧ isPort 0x3FF9 1 ∧ isPort 0x2002 2 ∧ isPort 0x3FFB 3 ∧ isPort 0x2004 4 ∧ isPort 0x3FFD 5 ∧
        isPort 0x2006 6 ∧ isPort 0x3FFF 7) ∧
      0x4018 ≤ (0x4018 : Addr).toNat ∧ (0x5FFF : Addr).toNat < 0x6000 ∧ 0x6000 ≤ (0x6000 : Addr).toNat ∧
      ¬ (0x2000 ≤ (0x4000 : Addr).toNat ∧ (0x4000 : Addr).toNat < 0x4000) ∧ (0x4000 : Addr) ≠ 0x4016#16 ∧
      (0x4000 : Addr) ≠ 0x4017#16 := by
  unfold isPort
  decide

/-- Each port once; rendering in progress on the last visible and the pre-render line, and not on the line
between nor with both layers off. -/
theorem witness_BusWritesByRange :
    (0x1FFF : Addr).toNat < 0x2000 ∧
      (isPort 0x3FF8 0 ∧ isPort 0x2001 1 ∧ isPort 0x3FFA 2 ∧ isPort 0x2003 3 ∧ isPort 0x3FFC 4 ∧ isPort 0x2005 5 ∧
        isPort 0x3FFE 6 ∧ isPort 0x2007 7) ∧
      (drawing (ppuAt 239 0 0x08 false) ∧ drawing (ppuAt 261 340 0x10 false) ∧ ¬ drawing (ppuAt 240 0 0x18 false) ∧
        ¬ drawing (ppuAt 0 0 0x07 false)) ∧
      (0x4000 ≤ (0x401F : Addr).toNat ∧ (0x401F : Addr).toNat < 0x4020 ∧ (0x401F : Addr) ≠ 0x4014#16 ∧
        (0x401F : Addr) ≠ 0x4016#16) ∧ 0x4020 ≤ (0x4020 : Addr).toNat := by
  unfold isPort drawing
  decide

theorem witness_StatusReadClearsVblankAndToggle : isPort 0x2002 2 ∧ isPort 0x3FFA 2 :=
  ⟨⟨by decide, by decide, by decide⟩, by decide, by decide, by decide⟩

theorem witness_ScrollAndAddressWritesSetT :
    isPort 0x2005 5 ∧ isPort 0x3FFD 5 ∧ isPort 0x2006 6 ∧ isPort 0x3FFE 6 ∧ base.ppu.w = false ∧
      (withPpu { Ppu.powerOn with w := true }).ppu.w = true :=
  ⟨⟨by decide, by decide, by decide⟩, ⟨by decide, by decide, by decide⟩, ⟨by decide, by decide, by decide⟩,
    ⟨by decide, by decide, by decide⟩, rfl, rfl⟩

/-- Bus addresses at both ends of each range, with bit 14 of `v` set as well. -/
theorem witness_DataPortReadsWritesAndAdvances :
    isPort 0x3FFF 7 ∧ (0x5FFF : Vram).toNat % 0x4000 < 0x2000 ∧ 0x2000 ≤ (0x6000 : Vram).toNat % 0x4000 ∧
      (0x3EFF : Vram).toNat % 0x4000 < 0x3F00 ∧ 0x3F00 ≤ (0x7F00 : Vram).toNat % 0x4000 :=
  ⟨⟨by decide, by decide, by decide⟩, by decide, by decide, by decide, by decide⟩

theorem witness_NametableAndPaletteMirrors :
    (0x2000 ≤ (0x2000 : PpuAddr).toNat ∧ (0x3EFF : PpuAddr).toNat < 0x3F00) ∧
      base.board.cart.mapper = .nrom ∧ mmc1Machine.board.cart.mapper = .mmc1 ∧ mmc1Machine.board.mmc1 = Mmc1.powerOn ∧
      ((0x0C : BitVec 5).toNat % 4 = 0 ∧ (0x0D : BitVec 5).toNat % 4 = 1 ∧ (0x0E : BitVec 5).toNat % 4 = 2 ∧
        (0x0F : BitVec 5).toNat % 4 = 3) ∧
      palIndex (BitVec.ofNat 5 28) = palIndex (BitVec.ofNat 5 12) ∧
      palIndex (BitVec.ofNat 5 31) = palIndex (BitVec.ofNat 5 31) := by decide

/-- Rendering in progress on the last visible line and the pre-render line, and not on the line between;
DMA source pages on both sides of the ports and `$40`. -/
theorem witness_OamPortAndDma :
    isPort 0x3FFC 4 ∧ ((0x08 : Byte).getLsbD 3 || (0x08 : Byte).getLsbD 4) = true ∧
      ((239 : Nat) ≤ 239 ∧ ¬ ((240 : Nat) ≤ 239 ∨ (240 : Nat) = 261)) ∧ (0x1F : Byte).toNat < 0x20 ∧
      0x41 ≤ (0x41 : Byte).toNat ∧ (255 : Nat) < 256 :=
  ⟨⟨by decide, by decide, by decide⟩, by decide, by decide, by decide, by decide, by decide⟩

theorem witness_RasterAdvancesAndBlankFrame :
    (
      let p := ppuAt 261 339 0x08 true
      p.scanline = 261 ∧ p.dot = 339 ∧ p.oddFrame = true ∧ (p.mask.getLsbD 3 || p.mask.getLsbD 4) = true) ∧
      (
        let p := ppuAt 261 340 0x08 false
        p.scanline ≤ 261 ∧ p.dot ≤ 340 ∧ p.scanline = 261 ∧ p.dot = 340) ∧
      (
        let p := ppuAt 261 339 0x00 true
        ¬ (p.scanline = 261 ∧ p.dot = 339 ∧ p.oddFrame = true ∧ (p.mask.getLsbD 3 || p.mask.getLsbD 4) = true) ∧
          ¬ (p.scanline = 261 ∧ p.dot = 340)) ∧
      (
        let p := ppuAt 0 0 0x07 false
        p.scanline = 0 ∧ p.dot = 0 ∧ (p.mask.getLsbD 3 || p.mask.getLsbD 4) = false ∧ 89342 ≤ 89342) := by decide

theorem witness_VblankAndOamAddrDots :
    ((ppuAt 241 1 0 false).scanline = 241 ∧ (ppuAt 241 1 0 false).dot = 1) ∧
      ((ppuAt 261 1 0 false).scanline = 261 ∧ (ppuAt 261 1 0 false).dot = 1) ∧
      (
        let p := { ppuAt 241 2 0 false with spr0Hit := true, sprOverflow := true }
        ¬ (p.scanline = 241 ∧ p.dot = 1) ∧ ¬ (p.scanline = 261 ∧ p.dot = 1) ∧ p.spr0Hit = true ∧
          p.sprOverflow = true) ∧
      (
        let p := ppuAt 261 257 0x10 false
        (p.mask.getLsbD 3 || p.mask.getLsbD 4) = true ∧ (p.scanline ≤ 239 ∨ p.scanline = 261) ∧ 257 ≤ p.dot ∧
          p.dot ≤ 320) ∧
      (
        let p := ppuAt 239 320 0x08 false
        (p.mask.getLsbD 3 || p.mask.getLsbD 4) = true ∧ (p.scanline ≤ 239 ∨ p.scanline = 261) ∧ 257 ≤ p.dot ∧
          p.dot ≤ 320) := by decide

theorem witness_ScrollArithmeticOnFields : (0 : Nat) < 15 ∧ (14 : Nat) < 15 := by decide

/-- The phases of a tile's eight dots, the ends of the bit ranges, a clipped column, and the background
dots: their ends, the dots beside them, and a line and a mask that draw nothing. -/
theorem witness_BackgroundFetchShiftAndPixel :
    ((1 - 1) % 8 % 2 = 0 ∧ (2 - 1) % 8 = 1 ∧ (324 - 1) % 8 = 3 ∧ (6 - 1) % 8 = 5 ∧ (335 - 1) % 8 % 2 = 0 ∧
        (336 - 1) % 8 = 7) ∧
      (7 : Nat) < 8 ∧ (14 : Nat) < 15 ∧ (6 : Nat) < 7 ∧
      ((0x08 : Byte).getLsbD 3 = true ∧ (0x08 : Byte).getLsbD 1 = false) ∧
      (∀ d ∈ [1, 256, 321, 336], drawing (ppuAt 261 d 0x08 false) ∧ backgroundDots (ppuAt 261 d 0x08 false).dot) ∧
      (∀ d ∈ [0, 257, 320, 337], drawing (ppuAt 0 d 0x10 false) ∧ ¬ backgroundDots (ppuAt 0 d 0x10 false).dot) ∧
      ¬ drawing (ppuAt 240 1 0x18 false) ∧ ¬ drawing (ppuAt 0 1 0x07 false) := by
  unfold drawing backgroundDots
  decide

/-- Dot 257 of the last visible line and of the pre-render line, the dots beside it, and a line that draws
nothing. -/
theorem witness_EvaluationFindsTheFirstEightSprites :
    (
      let p := ppuAt 239 257 0x10 false
      drawing p ∧ p.dot = 257 ∧ p.scanline ≤ 239) ∧
      (
        let p := ppuAt 261 257 0x08 false
        drawing p ∧ p.dot = 257 ∧ p.scanline = 261) ∧
      (∀ p ∈ [ppuAt 239 256 0x10 false, ppuAt 239 258 0x10 false, ppuAt 240 257 0x18 false, ppuAt 261 0 0x08 false],
        ¬ (drawing p ∧ p.dot = 257) ∧ ¬ (p.scanline = 261 ∧ p.dot = 1)) := by
  unfold drawing
  decide

/-- Unit 0 not yet counted out, unit 1 opaque: unit 1 gives the pixel. -/
theorem witness_SpritePatternAddressAndUnits :
    let p : Ppu :=
      { Ppu.powerOn with
        mask := 0x14
        units := [⟨0xFF, 0, 0, 1⟩, ⟨0x80, 0x80, 0x23, 0⟩] ++ List.replicate 6 SpriteUnit.empty }
    let shown (u : SpriteUnit) : Nat :=
      if u.xcnt = 0 then 2 * (u.patHi.getLsbD 7).toNat + (u.patLo.getLsbD 7).toNat else 0
    ¬ (p.mask.getLsbD 4 = false ∨ 0 < 8 ∧ p.mask.getLsbD 2 = false) ∧
      p.units[1]? = some ⟨0x80, 0x80, 0x23, 0⟩ ∧ shown ⟨0x80, 0x80, 0x23, 0⟩ = 3 ∧
      (∀ j, j < 1 → (p.units[j]?).map shown = some 0) ∧ (∀ u ∈ Ppu.powerOn.units, shown u = 0) := by decide

/-- The loading dots: phases 5 and 7 of the first and last slot, with the slot filled and empty, the ends of
the range and the dots beside it; an emitting dot at both ends. -/
theorem witness_SpritePatternAddressAndUnits_loading :
    (∀ d ∈ [257, 262, 264, 318, 320], drawing (ppuAt 261 d 0x08 false) ∧ 257 ≤ (ppuAt 261 d 0x08 false).dot ∧
        (ppuAt 261 d 0x08 false).dot ≤ 320) ∧
      ((257 - 257) % 8 = 0 ∧ (262 - 257) % 8 = 5 ∧ (264 - 257) % 8 = 7 ∧ (264 - 257) / 8 = 0 ∧
        (318 - 257) % 8 = 5 ∧ (320 - 257) % 8 = 7 ∧ (320 - 257) / 8 = 7) ∧
      (7 < { ppuAt 261 320 0x08 false with secCount := 8 }.secCount ∧ (ppuAt 261 264 0x08 false).secCount ≤ 0) ∧
      (∀ p ∈ [ppuAt 0 256 0x08 false, ppuAt 0 321 0x08 false, ppuAt 240 264 0x18 false, ppuAt 239 264 0x07 false],
        ¬ (drawing p ∧ 257 ≤ p.dot ∧ p.dot ≤ 320)) ∧
      (∀ d ∈ [1, 256], drawing (ppuAt 239 d 0x10 false) ∧ (ppuAt 239 d 0x10 false).scanline ≤ 239 ∧
        1 ≤ (ppuAt 239 d 0x10 false).dot ∧ (ppuAt 239 d 0x10 false).dot ≤ 256) ∧
      (∀ p ∈ [ppuAt 239 0 0x10 false, ppuAt 239 321 0x10 false, ppuAt 261 1 0x10 false],
        ¬ (drawing p ∧ p.scanline ≤ 239 ∧ 1 ≤ p.dot ∧ p.dot ≤ 256)) := by
  unfold drawing
  decide

/-- A sprite-0 hit in the last column but one; the last dot of the last visible line; a flag that stays; the
dots beside the emitting ones, other lines and a mask that draws nothing, with the flag clear. -/
theorem witness_PixelPriorityAndSpriteZeroHit :
    let p : Ppu :=
      { ppuAt 239 255 0x1E false with
        bgLo := 0x8000, unitsHaveSpr0 := true
        units := ⟨0x80, 0, 0, 0⟩ :: List.replicate 7 SpriteUnit.empty }
    ((p.mask.getLsbD 3 || p.mask.getLsbD 4) = true ∧ p.scanline ≤ 239 ∧ 1 ≤ p.dot ∧ p.dot ≤ 256) ∧
      ((p.bgPixel 254).toNat ≠ 0 ∧ (p.spritePixel 254).pix.toNat ≠ 0 ∧ (p.spritePixel 254).fromUnit0 = true ∧
        p.unitsHaveSpr0 = true ∧ p.dot ≤ 255) ∧
      ((ppuAt 239 256 0x18 false).scanline ≤ 239 ∧ (ppuAt 239 256 0x18 false).dot ≤ 256) ∧
      ((0 : BitVec 2).toNat = 0 ∧ (3 : BitVec 2).toNat ≠ 0) ∧
      (
        let q := { ppuAt 261 0 0 false with spr0Hit := true }
        ¬ (q.scanline = 261 ∧ q.dot = 1) ∧ q.spr0Hit = true) ∧
      (∀ q ∈ [ppuAt 239 0 0x1E false, ppuAt 239 257 0x1E false, ppuAt 240 1 0x1E false, ppuAt 261 256 0x1E false,
          ppuAt 0 1 0x07 false],
        ¬ (drawing q ∧ q.scanline ≤ 239 ∧ 1 ≤ q.dot ∧ q.dot ≤ 256) ∧ q.spr0Hit = false) := by
  unfold drawing
  decide

theorem witness_FrameEventDeliversThenSamples :
    (
      let s := withPpu (ppuAt 261 339 0x08 true)
      s.ppu.scanline = 261 ∧ s.ppu.dot = 339 ∧ s.ppu.oddFrame = true ∧
        (s.ppu.mask.getLsbD 3 || s.ppu.mask.getLsbD 4) = true ∧ s.ports.pendingInput = []) ∧
      (
        let s := withPpu (ppuAt 261 340 0x00 false)
        let t := { s with ports := { s.ports with pendingInput := [(1, 2)] } }
        t.ppu.scanline = 261 ∧ t.ppu.dot = 340 ∧ t.ports.pendingInput = [(1, 2)]) ∧
      (
        let s := withPpu (ppuAt 261 338 0x08 true)
        ¬ (s.ppu.scanline = 261 ∧ (s.ppu.dot = 340 ∨ s.ppu.dot = 339 ∧ s.ppu.oddFrame = true ∧
          (s.ppu.mask.getLsbD 3 || s.ppu.mask.getLsbD 4) = true))) := by decide

theorem witness_Mmc1CommitsOnTheFifthWrite :
    mmc1Machine.board.cart.mapper = .mmc1 ∧ mmc1Machine.board.mmc1.count = 0 ∧
      0x8000 ≤ (0x8000 : Addr).toNat ∧ (0x9FFF : Addr).toNat < 0xA000 ∧ (0xBFFF : Addr).toNat < 0xC000 ∧
      (0xDFFF : Addr).toNat < 0xE000 ∧ ¬ (0xE000 : Addr).toNat < 0xE000 ∧ (0x7F : Byte).toNat < 128 ∧
      128 ≤ (0x80 : Byte).toNat := by decide

theorem witness_PrgWindowByMapper :
    base.board.cart.mapper = .nrom ∧ mmc1Machine.board.cart.mapper = .mmc1 ∧
      (0x4020 ≤ (0x4020 : Addr).toNat ∧ (0x5FFF : Addr).toNat < 0x6000) ∧
      (0x6000 ≤ (0x6000 : Addr).toNat ∧ (0x7FFF : Addr).toNat < 0x8000) ∧
      (0x8000 ≤ (0x8000 : Addr).toNat ∧ (0xBFFF : Addr).toNat < 0xC000) ∧ 0xC000 ≤ (0xC000 : Addr).toNat ∧
      ((0x04 : BitVec 5).toNat / 4 % 4 < 2 ∧ (0x08 : BitVec 5).toNat / 4 % 4 = 2 ∧
        (0x1F : BitVec 5).toNat / 4 % 4 = 3) := by decide

theorem witness_PatternMemoryByMapper :
    (0x1FFF : PpuAddr).toNat < 0x2000 ∧ 1 ≤ ({ vectors with chrBanks := 1 } : Cartridge).chrBanks ∧
      vectors.chrBanks = 0 := by decide

theorem witness_ControllersShiftOutTheButtons :
    ((0x01 : Byte).toNat % 2 = 1 ∧ (0xFE : Byte).toNat % 2 = 0) ∧
      ({ State.reset with ctl := ⟨0, 0, true⟩ } : State).ctl.strobe = true := by decide

/-- The header of the smallest NROM file: one PRG bank, CHR-RAM. -/
def smallHeader : List Byte := [0x4E, 0x45, 0x53, 0x1A, 1, 0, 0, 0, 0, 0, 0, 0, 0, 0, 0, 0]

theorem smallFile_loads (prg : List Byte) (h : prg.length = 16384) : ∃ c, loadINes (smallHeader ++ prg) = .ok c := by
  simp [loadINes, smallHeader, inesMagic, mapperNumber, mapperOf, h]

theorem witness_LoadedImageIsTheFile :
    (∃ c, loadINes (smallHeader ++ List.replicate 16384 0) = .ok c) ∧
      2 ≤ ((inesMagic ++ [1, 0, 0x20, 0x00]).getD 7 0 : Byte).toNat / 16 * 16 +
        ((inesMagic ++ [1, 0, 0x20, 0x00]).getD 6 0 : Byte).toNat / 16 :=
  ⟨smallFile_loads _ List.length_replicate, by decide⟩

theorem witness_StepKeepsTheStateWellFormed : base.wf = true ∧ ∃ t, step base = .next t :=
  ⟨by decide, next_of_isNext (by decide)⟩

theorem witness_StepKeepsTheCartridgeAndAdvancesTime :
    (∃ t, step base = .next t) ∧ State.reset.cpu.resetPending = true ∧ ∃ t, step State.reset = .next t :=
  ⟨next_of_isNext (by decide), rfl, next_of_isNext (by decide)⟩

end Sys2Proof.Tests
end

namespace Sys2Proof.Machine

open Sys2Proof.Spec (mnemonic)

/-! ## What each instruction is, once: its mnemonic, its operation and its shape

`exec` has 151 arms, and a claim about all instructions turns on the operation and the shape alone. The
tables below name the operations by mnemonic; `exec_meaning` reads every arm off them. -/

/-- The reading operations: mnemonic, and effect of the operand on the CPU. -/
inductive ReadOp : String → (Byte → Cpu → Cpu) → Prop where
  | lda : ReadOp "LDA" loadA
  | ldx : ReadOp "LDX" loadX
  | ldy : ReadOp "LDY" loadY
  | adc : ReadOp "ADC" adc
  | sbc : ReadOp "SBC" sbc
  | and : ReadOp "AND" andA
  | ora : ReadOp "ORA" oraA
  | eor : ReadOp "EOR" eorA
  | cmp : ReadOp "CMP" cmpA
  | cpx : ReadOp "CPX" cmpX
  | cpy : ReadOp "CPY" cmpY
  | bit : ReadOp "BIT" Cpu.bitTest

/-- The stores: mnemonic, and the register stored. -/
inductive StoreOp : String → (Cpu → Byte) → Prop where
  | sta : StoreOp "STA" Cpu.a
  | stx : StoreOp "STX" Cpu.x
  | sty : StoreOp "STY" Cpu.y

/-- The shifts and rotates: mnemonic, new byte, flags. -/
inductive ShiftOp : String → (Bool → Byte → Byte) → (Byte → Byte → Cpu → Cpu) → Prop where
  | asl : ShiftOp "ASL" aslRes leftFlags
  | lsr : ShiftOp "LSR" lsrRes rightFlags
  | rol : ShiftOp "ROL" rolResult leftFlags
  | ror : ShiftOp "ROR" rorResult rightFlags

/-- The read-modify-writes of memory: mnemonic, new byte, flags. -/
inductive ModifyOp : String → (Bool → Byte → Byte) → (Byte → Byte → Cpu → Cpu) → Prop where
  | inc : ModifyOp "INC" incRes stepFlags
  | dec : ModifyOp "DEC" decRes stepFlags
  | shift {mn res fl} (h : ShiftOp mn res fl) : ModifyOp mn res fl

/-- The implied instructions whose effect is on the CPU alone. -/
inductive CpuOp : String → (Cpu → Cpu) → Prop where
  | tax : CpuOp "TAX" (fun c => (c.setX c.a).setNZ c.a)
  | tay : CpuOp "TAY" (fun c => (c.setY c.a).setNZ c.a)
  | txa : CpuOp "TXA" (fun c => (c.setA c.x).setNZ c.x)
  | tya : CpuOp "TYA" (fun c => (c.setA c.y).setNZ c.y)
  | tsx : CpuOp "TSX" (fun c => (c.setX c.s).setNZ c.s)
  | txs : CpuOp "TXS" (fun c => c.setS c.x)
  | inx : CpuOp "INX" (fun c => (c.setX (c.x + 1)).setNZ (c.x + 1))
  | iny : CpuOp "INY" (fun c => (c.setY (c.y + 1)).setNZ (c.y + 1))
  | dex : CpuOp "DEX" (fun c => (c.setX (c.x - 1)).setNZ (c.x - 1))
  | dey : CpuOp "DEY" (fun c => (c.setY (c.y - 1)).setNZ (c.y - 1))
  | clc : CpuOp "CLC" (Cpu.setC false)
  | sec : CpuOp "SEC" (Cpu.setC true)
  | cli : CpuOp "CLI" (Cpu.setI false)
  | sei : CpuOp "SEI" (Cpu.setI true)
  | clv : CpuOp "CLV" (Cpu.setV false)
  | cld : CpuOp "CLD" (Cpu.setD false)
  | sed : CpuOp "SED" (Cpu.setD true)
  | nop : CpuOp "NOP" (fun c => c)

/-- The branches: mnemonic, and condition. -/
inductive BranchOp : String → (Cpu → Bool) → Prop where
  | bcc : BranchOp "BCC" (fun c => !c.c)
  | bcs : BranchOp "BCS" (fun c => c.c)
  | beq : BranchOp "BEQ" (fun c => c.z)
  | bmi : BranchOp "BMI" (fun c => c.n)
  | bne : BranchOp "BNE" (fun c => !c.z)
  | bpl : BranchOp "BPL" (fun c => !c.n)
  | bvc : BranchOp "BVC" (fun c => !c.v)
  | bvs : BranchOp "BVS" (fun c => c.v)

/-- What an instruction of a mnemonic does to a state: one of the shapes of Operands.lean at one of the
operations above, or one of the ten instructions with a shape of their own. -/
inductive Meaning : String → (State → State) → Prop where
  | readImm {mn f} (h : ReadOp mn f) (k : Nat) (b : Byte) : Meaning mn (readImm k b f)
  | readMem {mn f} (h : ReadOp mn f) (k : Nat) (m : AddrMode) : Meaning mn (readMem k m f)
  | storeMem {mn val} (h : StoreOp mn val) (k : Nat) (m : AddrMode) : Meaning mn (storeMem k m val)
  | modifyMem {mn res fl} (h : ModifyOp mn res fl) (k : Nat) (m : AddrMode) :
      Meaning mn (modifyMem k m res fl)
  | modifyAcc {mn res fl} (h : ShiftOp mn res fl) (k : Nat) : Meaning mn (modifyAcc k res fl)
  | onCpu {mn f} (h : CpuOp mn f) (k : Nat) : Meaning mn (onCpu k f)
  | branch {mn cond} (h : BranchOp mn cond) (d : Int) : Meaning mn (branch cond d)
  | pha (k : Nat) : Meaning "PHA" (pushReg k Cpu.a)
  | php (k : Nat) : Meaning "PHP" (pushReg k (Cpu.pushedP true))
  | pla (k : Nat) : Meaning "PLA" (pullReg k loadA)
  | plp (k : Nat) : Meaning "PLP" (pullReg k Cpu.setP)
  | jmpAbs (k : Nat) (w : Addr) : Meaning "JMP" (fun s => jumpTo w (s.start k))
  | jmpInd (k : Nat) (w : Addr) : Meaning "JMP" (fun s => jumpIndirect w (s.start k))
  | jsr (k : Nat) (w : Addr) : Meaning "JSR" (fun s => callSubroutine w (s.start k))
  | rts (k : Nat) : Meaning "RTS" (fun s => returnFromSubroutine (s.start k))
  | brk : Meaning "BRK" softwareInterrupt
  | rti (k : Nat) : Meaning "RTI" (fun s => returnFromInterrupt (s.start k))

/-- EVERY INSTRUCTION HAS A MEANING of its mnemonic, and `exec` runs it. -/
theorem exec_meaning (i : Instr) : ∃ f, Meaning (mnemonic i) f ∧ ∀ s, exec i s = .next (f s) := by
  cases i
  all_goals refine ⟨_, ?_, fun _ => rfl⟩
  case ldaImm => exact .readImm .lda _ _
  case ldaZp | ldaZpx | ldaAbs | ldaAbx | ldaAby | ldaIzx | ldaIzy => exact .readMem .lda _ _
  case ldxImm => exact .readImm .ldx _ _
  case ldxZp | ldxZpy | ldxAbs | ldxAby => exact .readMem .ldx _ _
  case ldyImm => exact .readImm .ldy _ _
  case ldyZp | ldyZpx | ldyAbs | ldyAbx => exact .readMem .ldy _ _
  case adcImm => exact .readImm .adc _ _
  case adcZp | adcZpx | adcAbs | adcAbx | adcAby | adcIzx | adcIzy => exact .readMem .adc _ _
  case sbcImm => exact .readImm .sbc _ _
  case sbcZp | sbcZpx | sbcAbs | sbcAbx | sbcAby | sbcIzx | sbcIzy => exact .readMem .sbc _ _
  case andImm => exact .readImm .and _ _
  case andZp | andZpx | andAbs | andAbx | andAby | andIzx | andIzy => exact .readMem .and _ _
  case oraImm => exact .readImm .ora _ _
  case oraZp | oraZpx | oraAbs | oraAbx | oraAby | oraIzx | oraIzy => exact .readMem .ora _ _
  case eorImm => exact .readImm .eor _ _
  case eorZp | eorZpx | eorAbs | eorAbx | eorAby | eorIzx | eorIzy => exact .readMem .eor _ _
  case cmpImm => exact .readImm .cmp _ _
  case cmpZp | cmpZpx | cmpAbs | cmpAbx | cmpAby | cmpIzx | cmpIzy => exact .readMem .cmp _ _
  case cpxImm => exact .readImm .cpx _ _
  case cpxZp | cpxAbs => exact .readMem .cpx _ _
  case cpyImm => exact .readImm .cpy _ _
  case cpyZp | cpyAbs => exact .readMem .cpy _ _
  case bitZp | bitAbs => exact .readMem .bit _ _
  case staZp | staZpx | staAbs | staAbx | staAby | staIzx | staIzy => exact .storeMem .sta _ _
  case stxZp | stxZpy | stxAbs => exact .storeMem .stx _ _
  case styZp | styZpx | styAbs => exact .storeMem .sty _ _
  case incZp | incZpx | incAbs | incAbx => exact .modifyMem .inc _ _
  case decZp | decZpx | decAbs | decAbx => exact .modifyMem .dec _ _
  case aslAcc => exact .modifyAcc .asl _
  case aslZp | aslZpx | aslAbs | aslAbx => exact .modifyMem (.shift .asl) _ _
  case lsrAcc => exact .modifyAcc .lsr _
  case lsrZp | lsrZpx | lsrAbs | lsrAbx => exact .modifyMem (.shift .lsr) _ _
  case rolAcc => exact .modifyAcc .rol _
  case rolZp | rolZpx | rolAbs | rolAbx => exact .modifyMem (.shift .rol) _ _
  case rorAcc => exact .modifyAcc .ror _
  case rorZp | rorZpx | rorAbs | rorAbx => exact .modifyMem (.shift .ror) _ _
  case tax => exact .onCpu .tax _
  case tay => exact .onCpu .tay _
  case txa => exact .onCpu .txa _
  case tya => exact .onCpu .tya _
  case tsx => exact .onCpu .tsx _
  case txs => exact .onCpu .txs _
  case inx => exact .onCpu .inx _
  case iny => exact .onCpu .iny _
  case dex => exact .onCpu .dex _
  case dey => exact .onCpu .dey _
  case clc => exact .onCpu .clc _
  case sec => exact .onCpu .sec _
  case cli => exact .onCpu .cli _
  case sei => exact .onCpu .sei _
  case clv => exact .onCpu .clv _
  case cld => exact .onCpu .cld _
  case sed => exact .onCpu .sed _
  case nop => exact .onCpu .nop _
  case bcc => exact .branch .bcc _
  case bcs => exact .branch .bcs _
  case beq => exact .branch .beq _
  case bmi => exact .branch .bmi _
  case bne => exact .branch .bne _
  case bpl => exact .branch .bpl _
  case bvc => exact .branch .bvc _
  case bvs => exact .branch .bvs _
  case pha => exact .pha _
  case php => exact .php _
  case pla => exact .pla _
  case plp => exact .plp _
  case jmpAbs => exact .jmpAbs _ _
  case jmpInd => exact .jmpInd _ _
  case jsr => exact .jsr _ _
  case rts => exact .rts _
  case brk => exact .brk
  case rti => exact .rti _

/-! ## What the instructions of a mnemonic may write -/

/-- The mnemonics whose rules write memory: stores, read-modify-writes and pushes. -/
def memoryWriters : List String :=
  ["STA", "STX", "STY", "INC", "DEC", "ASL", "LSR", "ROL", "ROR", "PHA", "PHP", "JSR", "BRK"]

/-- The mnemonics whose rules write S. -/
def stackPointerWriters : List String := ["TXS", "PHA", "PHP", "PLA", "PLP", "JSR", "RTS", "BRK", "RTI"]

/-- The mnemonics whose rules write PC. -/
def pcWriters : List String :=
  ["JMP", "JSR", "RTS", "BRK", "RTI", "BCC", "BCS", "BEQ", "BMI", "BNE", "BPL", "BVC", "BVS"]

/-- `c'` differs from `c` at most in the flags and registers that the rules let an instruction of
mnemonic `mn` write (R20 to R24), and in the NMI latches and the two cycle counts. -/
structure Cpu.WritesOnly (mn : String) (c c' : Cpu) : Prop where
  flagC : mn ∉ ["ADC", "SBC", "CMP", "CPX", "CPY", "ASL", "LSR", "ROL", "ROR", "CLC", "SEC", "PLP", "RTI"] →
    c'.c = c.c
  flagsZN : mn ∉ ["LDA", "LDX", "LDY", "TAX", "TAY", "TXA", "TYA", "TSX", "PLA", "ADC", "SBC", "AND", "ORA",
      "EOR", "INC", "DEC", "INX", "INY", "DEX", "DEY", "ASL", "LSR", "ROL", "ROR", "BIT", "CMP", "CPX",
      "CPY", "PLP", "RTI"] → c'.z = c.z ∧ c'.n = c.n
  flagI : mn ∉ ["SEI", "CLI", "PLP", "RTI", "BRK"] → c'.i = c.i
  flagD : mn ∉ ["SED", "CLD", "PLP", "RTI"] → c'.d = c.d
  flagV : mn ∉ ["ADC", "SBC", "BIT", "CLV", "PLP", "RTI"] → c'.v = c.v
  regA : mn ∉ ["LDA", "TXA", "TYA", "PLA", "ADC", "SBC", "AND", "ORA", "EOR", "ASL", "LSR", "ROL", "ROR"] →
    c'.a = c.a
  regX : mn ∉ ["LDX", "TAX", "TSX", "INX", "DEX"] → c'.x = c.x
  regY : mn ∉ ["LDY", "TAY", "INY", "DEY"] → c'.y = c.y
  regS : mn ∉ stackPointerWriters → c'.s = c.s
  regPc : mn ∉ pcWriters → c'.pc = c.pc
  halted : c'.halted = c.halted
  resetPending : c'.resetPending = c.resetPending

/-- `t` differs from `s` at most in what the rules let an instruction of mnemonic `mn` write: the CPU as
above, memory only if `mn` is one of `memoryWriters`, the cartridge image and the host's ports never
(R28, R344). -/
structure WritesOnly (mn : String) (s t : State) : Prop where
  cpu : s.cpu.WritesOnly mn t.cpu
  cell : mn ∉ memoryWriters → ∀ c, t.cell c = s.cell c
  cart : t.board.cart = s.board.cart
  ports : t.ports = s.ports

/-- Every register and flag of the CPU but the NMI latches and the cycle counts. -/
def Cpu.registers (c : Cpu) :=
  (c.c, c.z, c.n, c.i, c.d, c.v, c.a, c.x, c.y, c.s, c.pc, c.halted, c.resetPending)

theorem afterRead_registers (a : Addr) (s : State) : (afterRead a s).cpu.registers = s.cpu.registers := by
  simp [Cpu.registers]

theorem memWrite_registers (a : Addr) (v : Byte) (s : State) :
    (memWrite a v s).cpu.registers = s.cpu.registers := by
  simp [Cpu.registers]

/-! ## What each operation writes of the CPU -/

namespace Cpu.WritesOnly

variable {mn : String} {c c' c'' : Cpu}

/-- Equal registers are written by nobody. -/
theorem of_registers (h : c'.registers = c.registers) : c.WritesOnly mn c' := by
  simp only [Cpu.registers, Prod.mk.injEq] at h
  obtain ⟨hc, hz, hn, hi, hd, hv, ha, hx, hy, hs, hpc, hh, hr⟩ := h
  exact ⟨fun _ => hc, fun _ => ⟨hz, hn⟩, fun _ => hi, fun _ => hd, fun _ => hv, fun _ => ha, fun _ => hx,
    fun _ => hy, fun _ => hs, fun _ => hpc, hh, hr⟩

theorem trans (h : c.WritesOnly mn c') (k : c'.WritesOnly mn c'') : c.WritesOnly mn c'' where
  flagC hm := (k.flagC hm).trans (h.flagC hm)
  flagsZN hm := ⟨(k.flagsZN hm).1.trans (h.flagsZN hm).1, (k.flagsZN hm).2.trans (h.flagsZN hm).2⟩
  flagI hm := (k.flagI hm).trans (h.flagI hm)
  flagD hm := (k.flagD hm).trans (h.flagD hm)
  flagV hm := (k.flagV hm).trans (h.flagV hm)
  regA hm := (k.regA hm).trans (h.regA hm)
  regX hm := (k.regX hm).trans (h.regX hm)
  regY hm := (k.regY hm).trans (h.regY hm)
  regS hm := (k.regS hm).trans (h.regS hm)
  regPc hm := (k.regPc hm).trans (h.regPc hm)
  halted := k.halted.trans h.halted
  resetPending := k.resetPending.trans h.resetPending

/-- With S replaced, every other field is the CPU's own. -/
theorem setS (h : mn ∈ stackPointerWriters) (v : Byte) (c : Cpu) : c.WritesOnly mn (c.setS v) :=
  { of_registers (c := c) rfl with regS := fun hm => absurd h hm }

/-- With PC replaced, every other field is the CPU's own. -/
theorem setPc (h : mn ∈ pcWriters) (w : Addr) (c : Cpu) : c.WritesOnly mn (c.setPc w) :=
  { of_registers (c := c) rfl with regPc := fun hm => absurd h hm }

end Cpu.WritesOnly

/-- Each reading operation against its own row of each list of writers. -/
theorem readOp_writesOnly {mn : String} {f : Byte → Cpu → Cpu} (h : ReadOp mn f) (m : Byte) (c : Cpu) :
    c.WritesOnly mn (f m c) := by
  cases h <;> constructor <;>
    simp [loadA, loadX, loadY, adc, sbc, andA, oraA, eorA, cmpA, cmpX, cmpY]

theorem modifyOp_flags_writesOnly {mn : String} {res : Bool → Byte → Byte} {fl : Byte → Byte → Cpu → Cpu}
    (h : ModifyOp mn res fl) (m r : Byte) (c : Cpu) : c.WritesOnly mn (fl m r c) := by
  cases h with
  | inc => constructor <;> simp [stepFlags]
  | dec => constructor <;> simp [stepFlags]
  | shift h => cases h <;> constructor <;> simp [leftFlags, rightFlags]

theorem modifyOp_mem_memoryWriters {mn : String} {res : Bool → Byte → Byte} {fl : Byte → Byte → Cpu → Cpu}
    (h : ModifyOp mn res fl) : mn ∈ memoryWriters := by
  cases h with
  | inc => simp [memoryWriters]
  | dec => simp [memoryWriters]
  | shift h => cases h <;> simp [memoryWriters]

theorem storeOp_mem_memoryWriters {mn : String} {val : Cpu → Byte} (h : StoreOp mn val) : mn ∈ memoryWriters := by
  cases h <;> simp [memoryWriters]

theorem branchOp_mem_pcWriters {mn : String} {cond : Cpu → Bool} (h : BranchOp mn cond) : mn ∈ pcWriters := by
  cases h <;> simp [pcWriters]

/-- A shift of A: A is written first, then the flags. -/
theorem shiftOp_acc_writesOnly {mn : String} {res : Bool → Byte → Byte} {fl : Byte → Byte → Cpu → Cpu}
    (h : ShiftOp mn res fl) (m r : Byte) (c : Cpu) : c.WritesOnly mn (fl m r (c.setA r)) := by
  have hA : c.WritesOnly mn (c.setA r) := by cases h <;> constructor <;> simp
  exact hA.trans (modifyOp_flags_writesOnly (.shift h) m r _)

theorem cpuOp_writesOnly {mn : String} {f : Cpu → Cpu} (h : CpuOp mn f) (c : Cpu) :
    c.WritesOnly mn (f c) := by
  cases h <;> constructor <;> simp [stackPointerWriters]

/-! ## What each state operation and shape writes -/

namespace WritesOnly

variable {mn : String} {s t u : State}

theorem trans (h : WritesOnly mn s t) (k : WritesOnly mn t u) : WritesOnly mn s u where
  cpu := h.cpu.trans k.cpu
  cell hm c := (k.cell hm c).trans (h.cell hm c)
  cart := k.cart.trans h.cart
  ports := k.ports.trans h.ports

/-- A change of the CPU alone is judged on the CPU. -/
theorem mapCpu {f : Cpu → Cpu} (h : s.cpu.WritesOnly mn (f s.cpu)) : WritesOnly mn s (s.mapCpu f) :=
  ⟨h, fun _ c => cell_mapCpu f s c, rfl, rfl⟩

theorem start (k : Nat) (s : State) : WritesOnly mn s (s.start k) := mapCpu (.of_registers rfl)

theorem penalty (b : Bool) (s : State) : WritesOnly mn s (s.penalty b) :=
  ⟨.of_registers (by rw [penalty_cpu]; rfl), fun _ => penalty_cell b s, by simp, by simp⟩

theorem afterRead (a : Addr) (s : State) : WritesOnly mn s (afterRead a s) :=
  ⟨.of_registers (afterRead_registers a s), fun _ => cell_afterRead a s, by simp, by simp⟩

theorem memWrite (h : mn ∈ memoryWriters) (a : Addr) (v : Byte) (s : State) :
    WritesOnly mn s (memWrite a v s) :=
  ⟨.of_registers (memWrite_registers a v s), fun hm => absurd h hm, by simp, by simp⟩

/-- A push writes memory and S. -/
theorem push (h : mn ∈ memoryWriters) (hs : mn ∈ stackPointerWriters) (v : Byte) (s : State) :
    WritesOnly mn s (push v s) :=
  (memWrite h _ v s).trans (mapCpu (.setS hs _ _))

/-- A pull writes S alone. -/
theorem pull (hs : mn ∈ stackPointerWriters) (s : State) : WritesOnly mn s (pull s).2 :=
  (mapCpu (.setS hs _ _)).trans (afterRead _ _)

theorem setPc (h : mn ∈ pcWriters) (w : Addr) (s : State) : WritesOnly mn s (s.mapCpu (Cpu.setPc w)) :=
  mapCpu (.setPc h w _)

theorem jump (h : mn ∈ pcWriters) (w : Addr) (k : Nat) (s : State) :
    WritesOnly mn s (s.mapCpu (fun c => (c.setPc w).setCycles k)) :=
  mapCpu ((Cpu.WritesOnly.setPc h w _).trans (.of_registers rfl))

theorem setP (h : mn ∈ ["PLP", "RTI"]) (v : Byte) (s : State) : WritesOnly mn s (s.mapCpu (Cpu.setP v)) := by
  refine mapCpu ?_
  simp only [List.mem_cons, List.not_mem_nil, or_false] at h
  rcases h with rfl | rfl <;> constructor <;> simp

theorem branch (h : mn ∈ pcWriters) (cond : Cpu → Bool) (d : Int) (s : State) :
    WritesOnly mn s (branch cond d s) := by
  rw [branch_eq]
  split
  · exact jump h _ _ s
  · exact start 2 s

theorem jumpIndirect (w : Addr) (s : State) : WritesOnly "JMP" s (jumpIndirect w s) :=
  (afterRead _ _).trans <| (afterRead _ _).trans (setPc (by decide) _ _)

theorem callSubroutine (w : Addr) (s : State) : WritesOnly "JSR" s (callSubroutine w s) := by
  have hpush := push (mn := "JSR") (by decide) (by decide)
  exact (hpush _ _).trans <| (hpush _ _).trans (setPc (by decide) w _)

theorem returnFromSubroutine (s : State) : WritesOnly "RTS" s (returnFromSubroutine s) :=
  (pull (by decide) _).trans <| (pull (by decide) _).trans (setPc (by decide) _ _)

theorem returnFromInterrupt (s : State) : WritesOnly "RTI" s (returnFromInterrupt s) :=
  (pull (by decide) _).trans <| (setP (by decide) _ _).trans <| (pull (by decide) _).trans <|
    (pull (by decide) _).trans (setPc (by decide) _ _)

theorem memRead16 (a : Addr) (s : State) : WritesOnly mn s (memRead16 a s).2 :=
  (afterRead a s).trans (afterRead (a + 1) _)

/-- Taking an interrupt writes what BRK may: the stack, S, I and PC (R413). -/
theorem interrupt (vector : Addr) (b : Bool) (ret : Addr) (s : State) :
    WritesOnly "BRK" s (interrupt vector b ret s) := by
  have hpush := push (mn := "BRK") (by decide) (by decide)
  have hsetI : ∀ t : State, WritesOnly "BRK" t (t.mapCpu (Cpu.setI true)) :=
    fun t => mapCpu (by constructor <;> simp)
  exact (hpush _ _).trans <| (hpush _ _).trans <| (hpush _ _).trans <| (hsetI _).trans <|
    (memRead16 vector _).trans (jump (by decide) _ 7 _)

end WritesOnly

/-- Every instruction writes only what the rules let its mnemonic write. -/
theorem meaning_writesOnly {mn : String} {f : State → State} (h : Meaning mn f) (s : State) :
    WritesOnly mn s (f s) := by
  cases h with
  | readImm h k b => exact (WritesOnly.start k s).trans (.mapCpu (readOp_writesOnly h b _))
  | readMem h k m =>
    exact (WritesOnly.start k s).trans <| (WritesOnly.afterRead _ _).trans <|
      (WritesOnly.mapCpu (readOp_writesOnly h _ _)).trans (.penalty _ _)
  | storeMem h k m => exact (WritesOnly.start k s).trans (.memWrite (storeOp_mem_memoryWriters h) _ _ _)
  | modifyMem h k m =>
    exact (WritesOnly.start k s).trans <| (WritesOnly.afterRead _ _).trans <|
      (WritesOnly.memWrite (modifyOp_mem_memoryWriters h) _ _ _).trans
        (.mapCpu (modifyOp_flags_writesOnly h _ _ _))
  | @modifyAcc mn res fl h k =>
    exact (WritesOnly.start k s).trans
      (.mapCpu (f := fun c => fl c.a (res c.c c.a) (c.setA (res c.c c.a))) (shiftOp_acc_writesOnly h _ _ _))
  | onCpu h k => exact (WritesOnly.start k s).trans (.mapCpu (cpuOp_writesOnly h _))
  | branch h d => exact .branch (branchOp_mem_pcWriters h) _ d s
  | pha k => exact (WritesOnly.start k s).trans (.push (by decide) (by decide) _ _)
  | php k => exact (WritesOnly.start k s).trans (.push (by decide) (by decide) _ _)
  | pla k =>
    exact (WritesOnly.start k s).trans <| (WritesOnly.pull (by decide) _).trans
      (.mapCpu (by constructor <;> simp [loadA]))
  | plp k =>
    exact (WritesOnly.start k s).trans <| (WritesOnly.pull (by decide) _).trans (.setP (by decide) _ _)
  | jmpAbs k w => exact (WritesOnly.start k s).trans (.setPc (by decide) w _)
  | jmpInd k w => exact (WritesOnly.start k s).trans (.jumpIndirect w _)
  | jsr k w => exact (WritesOnly.start k s).trans (.callSubroutine w _)
  | rts k => exact (WritesOnly.start k s).trans (.returnFromSubroutine _)
  | brk => exact .interrupt _ _ _ s
  | rti k => exact (WritesOnly.start k s).trans (.returnFromInterrupt _)

/-- `exec` of an instruction answers a next state that differs only in what its mnemonic may write. -/
theorem exec_writesOnly (i : Instr) (s : State) : ∃ t, exec i s = .next t ∧ WritesOnly (mnemonic i) s t := by
  obtain ⟨f, hf, hexec⟩ := exec_meaning i
  exact ⟨f s, hexec s, meaning_writesOnly hf s⟩

/-- Settles O36: the flags' part of `exec_writesOnly`. -/
theorem flagsChangeOnlyByTheirInstructions : Obligations.FlagsChangeOnlyByTheirInstructions := by
  unfold Obligations.FlagsChangeOnlyByTheirInstructions
  intro i s
  obtain ⟨t, ht, h⟩ := exec_writesOnly i s
  exact ⟨t, ht, h.cpu.flagC, h.cpu.flagsZN, h.cpu.flagI, h.cpu.flagD, h.cpu.flagV⟩

/-- Settles O37: the registers', the memory's and the always unchanged part of `exec_writesOnly`. -/
theorem registersAndMemoryChangeOnlyByTheirInstructions :
    Obligations.RegistersAndMemoryChangeOnlyByTheirInstructions := by
  unfold Obligations.RegistersAndMemoryChangeOnlyByTheirInstructions
  intro i s
  obtain ⟨t, ht, h⟩ := exec_writesOnly i s
  exact ⟨t, ht, h.cpu.regA, h.cpu.regX, h.cpu.regY, h.cpu.regS, h.cpu.regPc, h.cell, h.cart, h.ports,
    h.cpu.halted, h.cpu.resetPending⟩

/-! ## The invariant over a step and at power-on -/

/-- Every instruction keeps the invariant: its shape does, whatever its operation. -/
theorem State.wf_meaning {mn : String} {f : State → State} (h : Meaning mn f) {s : State} (hs : s.wf = true) :
    (f s).wf = true := by
  cases h with
  | readImm _ k b => exact wf_readImm k b _ hs
  | readMem _ k m => exact wf_readMem k m _ hs
  | storeMem _ k m => exact wf_storeMem k m _ hs
  | modifyMem _ k m => exact wf_modifyMem k m _ _ hs
  | modifyAcc _ k => exact wf_modifyAcc k _ _ hs
  | onCpu _ k => exact wf_onCpu k _ hs
  | branch _ d => exact wf_branch _ d hs
  | pha k => exact wf_pushReg k _ hs
  | php k => exact wf_pushReg k _ hs
  | pla k => exact wf_pullReg k _ hs
  | plp k => exact wf_pullReg k _ hs
  | jmpAbs k w => exact wf_jumpTo w (wf_start k hs)
  | jmpInd k w => exact wf_jumpIndirect w (wf_start k hs)
  | jsr k w => exact wf_callSubroutine w (wf_start k hs)
  | rts k => exact wf_returnFromSubroutine (wf_start k hs)
  | brk => exact wf_softwareInterrupt hs
  | rti k => exact wf_returnFromInterrupt (wf_start k hs)

theorem State.wf_exec {i : Instr} {s t : State} (hs : s.wf = true) (h : exec i s = .next t) : t.wf = true := by
  obtain ⟨f, hf, hexec⟩ := exec_meaning i
  obtain rfl : f s = t := by simpa [hexec] using h
  exact wf_meaning hf hs

/-- Settles O59: each of the three sequences and every instruction keeps the invariant, and so do the
fetch before it and the clock after it. -/
theorem stepKeepsTheStateWellFormed : Obligations.StepKeepsTheStateWellFormed := by
  unfold Obligations.StepKeepsTheStateWellFormed
  intro s t hs h
  rcases step_next h with rfl | rfl | rfl | ⟨i, u, hu, rfl⟩
  · exact State.wf_clock (State.wf_resetSequence hs)
  · exact State.wf_clock (State.wf_interrupt _ _ _ (State.wf_mapCpu _ hs))
  · exact State.wf_clock (State.wf_interrupt _ _ _ hs)
  · obtain ⟨-, -, -, -, hfetch⟩ := fetchInstr_spec s
    exact State.wf_clock (State.wf_exec (hfetch hs) hu)

/-- The memories and counters at power-on meet the invariant; the cartridge is as given. -/
theorem State.wf_powerOn {c : Cartridge} (h : c.wf = true) : (State.powerOn c).wf = true := by
  have hboard : (State.powerOn c).board.wf = true :=
    (Board.wf_iff _).2 ⟨h, Nat.zero_le _, rfl, rfl, .inr rfl, .inr ⟨rfl, rfl⟩⟩
  have hppu : Ppu.powerOn.wf = true := by decide
  exact (State.wf_iff _).2 ⟨rfl, hppu, hboard, rfl⟩

/-- Settles O12: the power-on record is R49's, every memory in it lists nothing and so reads 0, and it
meets the invariant. -/
theorem powerOnStateAndInvariant : Obligations.PowerOnStateAndInvariant := by
  unfold Obligations.PowerOnStateAndInvariant
  exact ⟨fun c => ⟨rfl, rfl, Memory.read_nil, Memory.read_nil, Memory.read_nil, Memory.read_nil,
    Memory.read_nil, Memory.read_nil, Memory.read_nil, fun _ _ => rfl, rfl, rfl, rfl, rfl, State.wf_powerOn⟩,
    rfl, State.wf_powerOn (by decide)⟩

end Sys2Proof.Machine

namespace Sys2Proof.Machine

open Sys2Proof.Spec (isPort drawing observed)

/-! ## The bus range by range: images of RAM, the PPU ports, what answers nothing -/

/-- The images of a RAM address lie below `$2000` and name its cell (R63). -/
theorem ramImage_toNat {a j : Nat} (ha : a < 0x800) (hj : j < 4) :
    (BitVec.ofNat 16 (a + j * 0x800)).toNat < 0x2000 ∧
    (BitVec.ofNat 16 (a + j * 0x800)).toNat % 0x800 = a := by
  rw [BitVec.toNat_ofNat]
  omega

/-- The image of port `r` in `$2000-$2007` (R64). -/
theorem isPort_image {a : Addr} {r : Nat} (h : isPort a r) : isPort (BitVec.ofNat 16 (0x2000 + r)) r := by
  obtain ⟨-, -, hr⟩ := h
  simp only [isPort, BitVec.toNat_ofNat]
  omega

theorem busByte_port {a : Addr} {r : Nat} (h : isPort a r) (s : State) :
    busByte a s = s.ppu.portByte s.board r := by
  obtain ⟨hlo, hhi, rfl⟩ := h
  simp [busByte, portOf, show ¬ a.toNat < 0x2000 by omega, hhi]

theorem afterRead_port {a : Addr} {r : Nat} (h : isPort a r) (s : State) :
    afterRead a s = observeNmi (s.setPpu (s.ppu.afterPortRead s.board r)) := by
  obtain ⟨hlo, hhi, rfl⟩ := h
  simp [afterRead, portOf, show ¬ a.toNat < 0x2000 by omega, hhi]

theorem memWrite_port {a : Addr} {r : Nat} (h : isPort a r) (v : Byte) (s : State) :
    memWrite a v s = observeNmi ((s.setBoard (s.ppu.boardAfterPortWrite s.board r v)).setPpu
      (s.ppu.afterPortWrite s.board r v)) := by
  obtain ⟨hlo, hhi, rfl⟩ := h
  simp [memWrite, portOf, show ¬ a.toNat < 0x2000 by omega, hhi]

/-- The model's observation of the NMI wire is the spec's (R415). -/
theorem observeNmi_observed (s : State) : (observeNmi s).cpu = observed s.ppu s.cpu := rfl

/-- The APU range reads 0 (R69). -/
theorem busByte_apu {a : Addr} (hlo : 0x4000 ≤ a.toNat) (hhi : a.toNat ≤ 0x4015) (s : State) :
    busByte a s = 0 := by
  have h6 : a ≠ 0x4016#16 := by bv_omega
  have h7 : a ≠ 0x4017#16 := by bv_omega
  simp [busByte, h6, h7, show ¬ a.toNat < 0x2000 by omega, show ¬ a.toNat < 0x4000 by omega,
    show a.toNat < 0x4016 by omega]

/-- `$4018-$5FFF` reads the open bus, on either side of the board's first address (R61, R70; D12). -/
theorem busByte_open {a : Addr} (hlo : 0x4018 ≤ a.toNat) (hhi : a.toNat < 0x6000) (s : State) :
    busByte a s = 0 := by
  by_cases hc : 0x4020 ≤ a.toNat
  · rw [busByte_cart hc, Board.cpuRead, if_pos hhi, Config.openBus]
  · have h6 : a ≠ 0x4016#16 := by bv_omega
    have h7 : a ≠ 0x4017#16 := by bv_omega
    simp [busByte, h6, h7, show ¬ a.toNat < 0x2000 by omega, show ¬ a.toNat < 0x4000 by omega,
      show ¬ a.toNat < 0x4016 by omega, show a.toNat < 0x4020 by omega, Config.openBus]

/-- Only a port or a controller address has a read effect (R76). -/
theorem afterRead_no_effect {a : Addr} (hp : ¬ (0x2000 ≤ a.toNat ∧ a.toNat < 0x4000)) (h6 : a ≠ 0x4016#16)
    (h7 : a ≠ 0x4017#16) (s : State) : afterRead a s = s := by
  rcases afterRead_cases a s with h | ⟨hlo, hhi, _⟩ | ⟨h, _⟩ | ⟨h, _⟩
  · exact h
  · exact absurd ⟨hlo, hhi⟩ hp
  · exact absurd h h6
  · exact absurd h h7

/-- Of the CPU a read changes the NMI latches alone. -/
theorem afterRead_cpu (a : Addr) (s : State) :
    (afterRead a s).cpu =
      { s.cpu with nmiPrev := (afterRead a s).cpu.nmiPrev, nmiPending := (afterRead a s).cpu.nmiPending } := by
  rcases afterRead_cases a s with h | ⟨_, _, h⟩ | ⟨_, h⟩ | ⟨_, h⟩ <;> simp [h, observeNmi_cpu, Cpu.setNmi]

/-- Writes of `$4000-$401F` other than the DMA and controller ports do nothing (R62, R69; D31). -/
theorem memWrite_ignored {a : Addr} (hlo : 0x4000 ≤ a.toNat) (hhi : a.toNat < 0x4020) (h4 : a ≠ 0x4014#16)
    (h6 : a ≠ 0x4016#16) (v : Byte) (s : State) : memWrite a v s = s := by
  simp [memWrite, h4, h6, show ¬ a.toNat < 0x2000 by omega, show ¬ a.toNat < 0x4000 by omega, hhi]

/-- A write of cartridge space reaches the board alone (R62, R70). -/
theorem memWrite_cart_addr {a : Addr} (h : 0x4020 ≤ a.toNat) (v : Byte) (s : State) :
    memWrite a v s = s.setBoard (s.board.cpuWrite a v) := by
  have h4 : a ≠ 0x4014#16 := by bv_omega
  have h6 : a ≠ 0x4016#16 := by bv_omega
  simp [memWrite, h4, h6, show ¬ a.toNat < 0x2000 by omega, show ¬ a.toNat < 0x4000 by omega,
    show ¬ a.toNat < 0x4020 by omega]

/-! ## The interrupt line over a step -/

/-- A frame event moves the buttons, never the interrupt line (log entry 4). -/
@[simp] theorem frameEvent_irqLine (f : FrameBuffer) (p : Ports) : (p.frameEvent f).irqLine = p.irqLine := by
  unfold Ports.frameEvent
  split <;> rfl

theorem dotStep_irqLine (s : State) : (dotStep s).ports.irqLine = s.ports.irqLine := by
  rw [dotStep_ports]
  split
  · exact frameEvent_irqLine _ _
  · rfl

@[simp] theorem clock_irqLine (s : State) : (clock s).ports.irqLine = s.ports.irqLine :=
  clock_induction (P := fun t => t.ports.irqLine = s.ports.irqLine) (fun _ h => h)
    (fun t h => (dotStep_irqLine t).trans h) s rfl

@[simp] theorem interrupt_ports (vector : Addr) (b : Bool) (ret : Addr) (s : State) :
    (interrupt vector b ret s).ports = s.ports := (WritesOnly.interrupt vector b ret s).ports

/-- Neither a sequence nor an instruction changes the host's ports, and the clock keeps the line. -/
theorem step_irqLine {s t : State} (h : step s = .next t) : t.ports.irqLine = s.ports.irqLine := by
  rcases step_next h with rfl | rfl | rfl | ⟨i, u, hu, rfl⟩
  · simp [resetSequence_eq]
  · simp [nmiSequence]
  · simp [irqSequence]
  · obtain ⟨u', hu', hw⟩ := exec_writesOnly i (fetchInstr s).2
    obtain rfl : u' = u := by simpa [hu'] using hu
    obtain ⟨-, -, hf, -, -⟩ := fetchInstr_spec s
    rw [clock_irqLine, hw.ports, hf]

/-- Settles O38: every image of RAM names one cell, every image of a port one port; the APU range answers
nothing; and the interrupt line stands through the sequences, the instructions and the clock. -/
theorem mirrorsAndApuStub : Obligations.MirrorsAndApuStub := by
  unfold Obligations.MirrorsAndApuStub
  refine ⟨fun s a j k v ha hj hk => ?_, fun s a r v h => ?_, fun s a v hlo hhi => ⟨fun h => ?_, fun h4 h6 => ?_⟩,
    fun _ _ => step_irqLine⟩
  · obtain ⟨hjlt, hjcell⟩ := ramImage_toNat ha hj
    obtain ⟨hklt, hkcell⟩ := ramImage_toNat ha hk
    refine ⟨by rw [busByte_ram hjlt, hjcell], afterRead_ram_addr hjlt s, ?_, ?_⟩
    · rw [memWrite_ram_addr hjlt, hjcell]; rfl
    · rw [busByte_ram hklt, hkcell, memWrite_ram_addr hjlt, hjcell, State.setRam_ram, Memory.read_write_same]
  · have h' := isPort_image h
    exact ⟨by rw [busByte_port h, busByte_port h'], by rw [afterRead_port h, afterRead_port h'],
      by rw [memWrite_port h, memWrite_port h']⟩
  · exact ⟨busByte_apu hlo h s, afterRead_no_effect (by omega) (by bv_omega) (by bv_omega) s⟩
  · exact memWrite_ignored hlo (by omega) (by bv_omega) (by bv_omega) v s

/-! ## Reads of the PPU's ports -/

/-- The write-only ports give what is in the latch (R251; D16). -/
theorem Ppu.portByte_writeOnly (b : Board) {r : Nat} (h : r = 0 ∨ r = 1 ∨ r = 3 ∨ r = 5 ∨ r = 6) (p : Ppu) :
    p.portByte b r = p.ioLatch := by
  rcases h with rfl | rfl | rfl | rfl | rfl <;> rfl

/-- A read of a port but PPUSTATUS and PPUDATA only latches its byte (R251; D15). -/
theorem Ppu.afterPortRead_latch (b : Board) {r : Nat} (h2 : r ≠ 2) (h7 : r ≠ 7) (p : Ppu) :
    p.afterPortRead b r = { p with ioLatch := p.portByte b r } := by
  unfold Ppu.afterPortRead
  split
  · exact absurd rfl h2
  · exact absurd rfl h7
  · rfl

/-- The latch keeps its own byte, so a read of a write-only port leaves the PPU as it is (R251; D16). -/
theorem Ppu.afterPortRead_writeOnly (b : Board) {r : Nat} (h : r = 0 ∨ r = 1 ∨ r = 3 ∨ r = 5 ∨ r = 6)
    (p : Ppu) : p.afterPortRead b r = p := by
  rw [Ppu.afterPortRead_latch b (by omega) (by omega), Ppu.portByte_writeOnly b h]

@[simp] theorem Ppu.afterPortRead_ioLatch (b : Board) (r : Nat) (p : Ppu) :
    (p.afterPortRead b r).ioLatch = p.portByte b r := by
  unfold Ppu.afterPortRead
  split <;> rfl

/-- Settles O39: each range by the lemma about it, each port by what its read gives and leaves. -/
theorem busReadsByRange : Obligations.BusReadsByRange := by
  unfold Obligations.BusReadsByRange
  intro s a
  refine ⟨fun h => busByte_ram h s, fun r h => ?_, fun hlo hhi => busByte_open hlo hhi s,
    fun h => busByte_cart (by omega) s, fun hp h6 h7 => afterRead_no_effect hp h6 h7 s, afterRead_ram a s,
    afterRead_board a s, afterRead_ports a s, cell_afterRead a s, afterRead_cpu a s⟩
  rw [afterRead_port h, busByte_port h]
  refine ⟨rfl, fun hr => ⟨Ppu.portByte_writeOnly s.board hr s.ppu, Ppu.afterPortRead_writeOnly s.board hr s.ppu⟩, ?_,
    Ppu.afterPortRead_ioLatch s.board r s.ppu, rfl, rfl⟩
  rintro rfl
  exact ⟨rfl, rfl⟩

/-! ## Writes of the PPU's ports -/

/-- PPUSCROLL sets the scroll registers `v`, `t`, fine X and `w` at most (R263). -/
theorem Ppu.writeScroll_frame (v : Byte) (p : Ppu) :
    p.writeScroll v =
      { p with
        v := (p.writeScroll v).v, t := (p.writeScroll v).t
        fineX := (p.writeScroll v).fineX, w := (p.writeScroll v).w } := by
  unfold Ppu.writeScroll
  split <;> rfl

/-- PPUADDR sets the scroll registers at most (R264). -/
theorem Ppu.writeAddr_frame (v : Byte) (p : Ppu) :
    p.writeAddr v =
      { p with
        v := (p.writeAddr v).v, t := (p.writeAddr v).t
        fineX := (p.writeAddr v).fineX, w := (p.writeAddr v).w } := by
  unfold Ppu.writeAddr
  split <;> rfl

/-- A store on the PPU's side of its bus reaches nametable and palette RAM at most (R85). -/
theorem ppuWriteRam_frame (b : Board) (p : Ppu) (a : PpuAddr) (v : Byte) :
    ppuWriteRam b p a v =
      { p with ntRam := (ppuWriteRam b p a v).ntRam, palette := (ppuWriteRam b p a v).palette } := by
  unfold ppuWriteRam
  split
  · rfl
  · split <;> rfl

/-- PPUDATA sets `v` and the RAM behind the PPU's bus at most (R265). -/
theorem Ppu.writeData_frame (b : Board) (v : Byte) (p : Ppu) :
    p.writeData b v =
      { p with
        v := (p.writeData b v).v, ntRam := (p.writeData b v).ntRam, palette := (p.writeData b v).palette } := by
  unfold Ppu.writeData
  rw [ppuWriteRam_frame]
  rfl

/-- Every port write leaves its byte in the latch (R251). -/
@[simp] theorem Ppu.afterPortWrite_ioLatch (b : Board) (r : Nat) (v : Byte) (p : Ppu) :
    (p.afterPortWrite b r v).ioLatch = v := by
  unfold Ppu.afterPortWrite
  dsimp only
  split
  · rfl
  · rfl
  · rfl
  · unfold Ppu.writeOamData
    split <;> rfl
  · rw [Ppu.writeScroll_frame]
  · rw [Ppu.writeAddr_frame]
  · rw [Ppu.writeData_frame]
  · rfl

/-- Only PPUDATA reaches the board (R265). -/
theorem Ppu.boardAfterPortWrite_eq (b : Board) {r : Nat} (h : r ≠ 7) (v : Byte) (p : Ppu) :
    p.boardAfterPortWrite b r v = b := by
  unfold Ppu.boardAfterPortWrite
  split
  · exact absurd rfl h
  · rfl

/-- PPUCTRL puts its low two bits in `t[11:10]` and keeps the others of `t` (R252). -/
theorem Ppu.writeCtrl_t_getLsbD (v : Byte) (p : Ppu) {j : Nat} (hj : j < 15) :
    (p.writeCtrl v).t.getLsbD j = if j = 10 ∨ j = 11 then v.getLsbD (j - 10) else p.t.getLsbD j := by
  unfold Ppu.writeCtrl
  interval_cases j <;> simp

/-- OAMDATA discards the byte while rendering is in progress, and leaves it in the latch (R262; D17). -/
theorem Ppu.afterPortWrite_oamData_drawing (b : Board) (v : Byte) {p : Ppu} (h : drawing p) :
    p.afterPortWrite b 4 v = { p with ioLatch := v } :=
  Ppu.writeOamData_rendering v (p := { p with ioLatch := v }) (p.renderingInProgress_iff.2 h)

/-- OAMDATA stores at OAMADDR and advances it while no rendering is in progress (R262; D17). -/
theorem Ppu.afterPortWrite_oamData_idle (b : Board) (v : Byte) {p : Ppu} (h : ¬ drawing p) :
    p.afterPortWrite b 4 v =
      { p with oam := p.oam.write p.oamAddr.toNat v, oamAddr := p.oamAddr + 1, ioLatch := v } :=
  Ppu.writeOamData_idle v (p := { p with ioLatch := v })
    (Bool.eq_false_iff.2 (mt p.renderingInProgress_iff.1 h))

/-- A write of `$4016` latches the buttons and sets the strobe to the byte's parity (R381). -/
theorem memWrite_controllers (v : Byte) (s : State) :
    memWrite 0x4016#16 v s =
      s.setCtl
        { strobe := decide (v.toNat % 2 = 1), shift0 := s.ports.buttons0, shift1 := s.ports.buttons1 } := by
  have hbit : v.getLsbD 0 = decide (v.toNat % 2 = 1) := Nat.testBit_zero _
  rw [← hbit]
  rfl

/-- Settles O40: each range by the lemma about it, each port by its own write. -/
theorem busWritesByRange : Obligations.BusWritesByRange := by
  unfold Obligations.BusWritesByRange
  intro s a v
  refine ⟨fun h => memWrite_ram_addr h v s, fun r h => ?_, ?_, fun hlo hhi h4 h6 => memWrite_ignored hlo hhi h4 h6 v s,
    fun h => memWrite_cart_addr h v s⟩
  · rw [memWrite_port h]
    refine ⟨rfl, rfl, rfl, rfl, rfl, rfl, fun h7 => Ppu.boardAfterPortWrite_eq s.board h7 v s.ppu,
      Ppu.afterPortWrite_ioLatch s.board r v s.ppu, ?_, ?_, ?_, ?_, ?_, ?_, ?_, ?_⟩
    · rintro rfl
      exact ⟨rfl, fun j => Ppu.writeCtrl_t_getLsbD v { s.ppu with ioLatch := v }⟩
    · rintro rfl; rfl
    · rintro rfl; rfl
    · rintro rfl; rfl
    · rintro rfl; exact Ppu.afterPortWrite_oamData_drawing s.board v
    · rintro rfl; exact Ppu.afterPortWrite_oamData_idle s.board v
    · rintro (rfl | rfl)
      · exact Ppu.writeScroll_frame v { s.ppu with ioLatch := v }
      · exact Ppu.writeAddr_frame v { s.ppu with ioLatch := v }
    · rintro rfl; exact Ppu.writeData_frame s.board v { s.ppu with ioLatch := v }
  · rintro rfl
    exact memWrite_controllers v s

/-! ## The PPU's bus: nametable pages and palette images -/

/-- A palette write is read back at every address of its cell, six bits of it (R84, R85, R87; D19). -/
theorem ppuRead_ppuWriteRam_palette (b : Board) (p : Ppu) (v : Byte) {a a' : PpuAddr} (h : 0x3F00 ≤ a.toNat)
    (h' : 0x3F00 ≤ a'.toNat) (hcell : palCell a = palCell a') :
    ppuRead b (ppuWriteRam b p a v) a' = (v.setWidth 6).setWidth 8 := by
  simp [ppuRead, ppuWriteRam, hcell, show ¬ a.toNat < 0x2000 by omega, show ¬ a.toNat < 0x3F00 by omega,
    show ¬ a'.toNat < 0x2000 by omega, show ¬ a'.toNat < 0x3F00 by omega]

theorem byte_setWidth_six (v : Byte) : (v.setWidth 6).setWidth 8 = BitVec.ofNat 8 (v.toNat % 64) := by
  apply BitVec.eq_of_toNat_eq
  simp

theorem paletteAddr_ge {i : Nat} (hi : i < 32) : 0x3F00 ≤ (BitVec.ofNat 14 (0x3F00 + i)).toNat := by
  rw [BitVec.toNat_ofNat]
  omega

/-- `$3F00 + i` names the cell of palette index `i` (R87). -/
theorem palCell_paletteAddr (i : Nat) :
    palCell (BitVec.ofNat 14 (0x3F00 + i)) = (palIndex (BitVec.ofNat 5 i)).toNat := by
  have hindex : (BitVec.ofNat 14 (0x3F00 + i)).setWidth 5 = BitVec.ofNat 5 i := by
    apply BitVec.eq_of_toNat_eq
    simp only [BitVec.toNat_setWidth, BitVec.toNat_ofNat]
    omega
  rw [palCell, hindex]

/-- The four indices that share the storage of another, and that every other is its own (R87). -/
theorem palIndex_toNat : ∀ i : BitVec 5, (palIndex i).toNat =
    if i.toNat = 16 ∨ i.toNat = 20 ∨ i.toNat = 24 ∨ i.toNat = 28 then i.toNat - 16 else i.toNat := by
  decide

/-- The page of each table under the two mirrorings that have two of them (R86). -/
theorem ntPage_two_pages {table : Nat} (h : table < 4) :
    ntPage .horizontal table = (if table = 0 ∨ table = 1 then 0 else 1) ∧
    ntPage .vertical table = (if table = 0 ∨ table = 2 then 0 else 1) := by
  interval_cases table <;> decide

theorem ntPage_singleLo (table : Nat) : ntPage .singleLo table = 0 := rfl
theorem ntPage_singleHi (table : Nat) : ntPage .singleHi table = 1 := rfl

theorem mirroring_nrom {b : Board} (h : b.cart.mapper = .nrom) :
    b.mirroring = if b.cart.hdrMirroring = .horizontal then .horizontal else .vertical := by
  unfold Board.mirroring
  rw [h]
  cases b.cart.hdrMirroring <;> rfl

theorem mirroring_mmc1 {b : Board} (h : b.cart.mapper = .mmc1) :
    (b.mmc1.control.toNat % 4 = 0 → b.mirroring = .singleLo) ∧
    (b.mmc1.control.toNat % 4 = 1 → b.mirroring = .singleHi) ∧
    (b.mmc1.control.toNat % 4 = 2 → b.mirroring = .vertical) ∧
    (b.mmc1.control.toNat % 4 = 3 → b.mirroring = .horizontal) := by
  unfold Board.mirroring
  rw [h]
  refine ⟨?_, ?_, ?_, ?_⟩ <;> intro hc <;> simp [hc]

/-- Settles O44: the pages of R86, each mapper's answer, the 32 palette indices, and the palette cell that two
addresses can share. -/
theorem nametableAndPaletteMirrors : Obligations.NametableAndPaletteMirrors := by
  unfold Obligations.NametableAndPaletteMirrors
  refine ⟨fun a _ _ => ?_, fun b => ⟨mirroring_nrom, fun h => ?_⟩, palIndex_toNat, fun b p v i j hi hj hij => ?_⟩
  · obtain ⟨hhor, hver⟩ := ntPage_two_pages (Nat.mod_lt (a.toNat / 1024) (by omega : 0 < 4))
    simp [ntIndex, hhor, hver, ntPage_singleLo, ntPage_singleHi]
  · obtain ⟨h0, h1, h2, h3⟩ := mirroring_mmc1 h
    exact ⟨h0, h1, h2, h3, fun hp => h0 (by rw [hp]; decide)⟩
  · have hcell : palCell (BitVec.ofNat 14 (0x3F00 + i)) = palCell (BitVec.ofNat 14 (0x3F00 + j)) := by
      rw [palCell_paletteAddr, palCell_paletteAddr, hij]
    rw [ppuRead_ppuWriteRam_palette b p v (paletteAddr_ge hi) (paletteAddr_ge hj) hcell, byte_setWidth_six]

end Sys2Proof.Machine

namespace Sys2Proof

open Sys2Proof.Spec (undefinedOpcodes)

/-! ## Encoding and decoding, through the rows of the opcode table -/

/-- `bs` is the encoding of `i` by a row of the opcode table: the row's opcode, then as many operand bytes as
its addressing mode takes, from which the row makes `i`. One constructor for each of R100's formats. -/
inductive RowEncodes (i : Instr) : List Byte → Prop where
  | noOperand {op : Byte} {r : OpRow} (hrow : rowOf op = some r) (hlen : r.mode.operandBytes = 0)
      (hmake : r.make 0 0 = i) : RowEncodes i [op]
  | oneByte {op : Byte} {r : OpRow} (hrow : rowOf op = some r) (hlen : r.mode.operandBytes = 1) (b : Byte)
      (hmake : r.make b 0 = i) : RowEncodes i [op, b]
  | twoBytes {op : Byte} {r : OpRow} (hrow : rowOf op = some r) (hlen : r.mode.operandBytes = 2) (lo hi : Byte)
      (hmake : r.make lo hi = i) : RowEncodes i [op, lo, hi]

/-- THE ENCODER, once: it writes every well-formed instruction as its row does. -/
theorem rowEncodes_encode {i : Instr} (h : i.wellFormed = true) : RowEncodes i (encode i) := by
  cases i
  case tax | tay | txa | tya | tsx | txs | pha | php | pla | plp | inx | iny | dex | dey | aslAcc | lsrAcc |
      rolAcc | rorAcc | rts | clc | sec | cli | sei | clv | cld | sed | nop | brk | rti =>
    exact .noOperand rfl rfl rfl
  case ldaIzx b | ldaZp b | ldaImm b | ldaIzy b | ldaZpx b | ldxImm b | ldxZp b | ldxZpy b | ldyImm b | ldyZp b |
      ldyZpx b | staIzx b | staZp b | staIzy b | staZpx b | stxZp b | stxZpy b | styZp b | styZpx b | adcIzx b |
      adcZp b | adcImm b | adcIzy b | adcZpx b | sbcIzx b | sbcZp b | sbcImm b | sbcIzy b | sbcZpx b | andIzx b |
      andZp b | andImm b | andIzy b | andZpx b | oraIzx b | oraZp b | oraImm b | oraIzy b | oraZpx b | eorIzx b |
      eorZp b | eorImm b | eorIzy b | eorZpx b | cmpIzx b | cmpZp b | cmpImm b | cmpIzy b | cmpZpx b | cpxImm b |
      cpxZp b | cpyImm b | cpyZp b | bitZp b | incZp b | incZpx b | decZp b | decZpx b | aslZp b | aslZpx b |
      lsrZp b | lsrZpx b | rolZp b | rolZpx b | rorZp b | rorZpx b =>
    exact .oneByte rfl rfl b rfl
  case ldaAbs w | ldaAby w | ldaAbx w | ldxAbs w | ldxAby w | ldyAbs w | ldyAbx w | staAbs w | staAby w |
      staAbx w | stxAbs w | styAbs w | adcAbs w | adcAby w | adcAbx w | sbcAbs w | sbcAby w | sbcAbx w |
      andAbs w | andAby w | andAbx w | oraAbs w | oraAby w | oraAbx w | eorAbs w | eorAby w | eorAbx w |
      cmpAbs w | cmpAby w | cmpAbx w | cpxAbs w | cpyAbs w | bitAbs w | incAbs w | incAbx w | decAbs w |
      decAbx w | aslAbs w | aslAbx w | lsrAbs w | lsrAbx w | rolAbs w | rolAbx w | rorAbs w | rorAbx w |
      jmpAbs w | jmpInd w | jsr w =>
    exact .twoBytes rfl rfl _ _ (congrArg _ (abs16_bytes w))
  case bcc d | bcs d | beq d | bmi d | bne d | bpl d | bvc d | bvs d =>
    exact .oneByte rfl rfl _ (congrArg _ (toInt_ofInt_disp h))

/-- THE DECODER, one way: it reads what a row encodes and leaves the rest. -/
theorem decode_of_rowEncodes {i : Instr} {bs : List Byte} (h : RowEncodes i bs) (rest : List Byte) :
    decode (bs ++ rest) = .ok (i, rest) := by
  cases h with
  | noOperand hrow hlen hmake => exact hmake ▸ decode_row0 hrow hlen rest
  | oneByte hrow hlen b hmake => exact hmake ▸ decode_row1 hrow hlen b rest
  | twoBytes hrow hlen lo hi hmake => exact hmake ▸ decode_row2 hrow hlen lo hi rest

/-- Settles O1: the encoding of a well-formed instruction is its row's, and the decoder reads a row's. -/
theorem decodeOfEncodeIsTheInstruction : Obligations.DecodeOfEncodeIsTheInstruction := by
  unfold Obligations.DecodeOfEncodeIsTheInstruction
  exact fun i rest h => decode_of_rowEncodes (rowEncodes_encode h) rest

/-- THE DECODER, the other way: what it accepts is a row's encoding and the rest. -/
theorem rowEncodes_of_decode {bs rest : List Byte} {i : Instr} (h : decode bs = .ok (i, rest)) :
    ∃ pre, RowEncodes i pre ∧ pre ++ rest = bs := by
  unfold decode at h
  split at h
  · cases h
  · next op bs =>
    split at h
    · cases h
    · next r hr =>
      split at h
      · next hn =>
        cases h
        exact ⟨[op], .noOperand hr hn rfl, rfl⟩
      · next b _ hn =>
        cases h
        exact ⟨[op, b], .oneByte hr hn b rfl, rfl⟩
      · next lo hi _ hn =>
        cases h
        exact ⟨[op, lo, hi], .twoBytes hr hn lo hi rfl, rfl⟩
      · cases h

/-- The operand bytes a row takes of two, the bytes of a 16-bit operand as `encode` writes them. -/
def OpRow.operands (r : OpRow) (lo hi : Byte) : List Byte :=
  match r.mode.operandBytes with
  | 0 => []
  | 1 => [lo]
  | _ => [loByte (abs16 lo hi), hiByte (abs16 lo hi)]

/-- What the row makes of any operand bytes is well formed, and `encode` writes the row's opcode and operands. -/
def OpRow.Encoded (r : OpRow) : Prop :=
  ∀ lo hi, (r.make lo hi).wellFormed = true ∧ encode (r.make lo hi) = r.opcode :: r.operands lo hi

/-- A branch's operand byte goes through its displacement and back; the jumps are computation. -/
theorem rowsControl_encoded : ∀ r ∈ rowsControl, r.Encoded := by
  have hbranch (op b : Byte) : [op, BitVec.ofInt 8 b.toInt] = [op, b] := by simp
  simp only [rowsControl, List.forall_mem_cons, List.not_mem_nil, IsEmpty.forall_iff, implies_true, and_true]
  refine ⟨fun _ _ => ⟨rfl, rfl⟩, fun _ _ => ⟨rfl, rfl⟩, fun _ _ => ⟨rfl, rfl⟩, fun _ _ => ⟨rfl, rfl⟩,
    ?_, ?_, ?_, ?_, ?_, ?_, ?_, ?_⟩
  all_goals exact fun b _ => ⟨dispOk_toInt b, hbranch _ b⟩

/-- Off the branches both facts are computation: no operand is out of range. -/
theorem opTable_encoded : ∀ r ∈ opTable, r.Encoded := by
  simp only [opTable, rowsLoadStoreA, rowsLoadStoreB, rowsStack, rowsArithA, rowsArithB, rowsIncShiftA,
    rowsIncShiftB, rowsSystem, List.forall_mem_append, List.forall_mem_cons, List.not_mem_nil,
    IsEmpty.forall_iff, implies_true, and_true]
  refine ⟨⟨?_, rowsControl_encoded⟩, ?_⟩ <;> and_intros
  all_goals exact fun _ _ => ⟨rfl, rfl⟩

/-- A row found under an opcode byte is a row of the table with that opcode. -/
theorem rowOf_eq_some {op : Byte} {r : OpRow} (h : rowOf op = some r) : r ∈ opTable ∧ r.opcode = op :=
  ⟨List.mem_of_find?_eq_some h, by simpa using List.find?_some h⟩

theorem encode_of_rowEncodes {i : Instr} {bs : List Byte} (h : RowEncodes i bs) :
    i.wellFormed = true ∧ encode i = bs := by
  cases h with
  | noOperand hrow hlen hmake =>
    obtain ⟨hmem, rfl⟩ := rowOf_eq_some hrow
    subst hmake
    simpa [OpRow.operands, hlen] using opTable_encoded _ hmem 0 0
  | oneByte hrow hlen b hmake =>
    obtain ⟨hmem, rfl⟩ := rowOf_eq_some hrow
    subst hmake
    simpa [OpRow.operands, hlen] using opTable_encoded _ hmem b 0
  | twoBytes hrow hlen lo hi hmake =>
    obtain ⟨hmem, rfl⟩ := rowOf_eq_some hrow
    subst hmake
    simpa [OpRow.operands, hlen] using opTable_encoded _ hmem lo hi

/-- What the decoder accepts, it accepts as the encoding of a well-formed instruction and the rest. -/
theorem encode_of_decode {bs rest : List Byte} {i : Instr} (h : decode bs = .ok (i, rest)) :
    i.wellFormed = true ∧ encode i ++ rest = bs := by
  obtain ⟨pre, hrow, rfl⟩ := rowEncodes_of_decode h
  obtain ⟨hwf, rfl⟩ := encode_of_rowEncodes hrow
  exact ⟨hwf, rfl⟩

/-! ## The undefined opcodes -/

/-- A list of bytes as a bit mask, so that a claim about all 256 bytes is one computation. -/
def byteMask (bs : List Byte) : Nat := bs.foldr (fun b m => m ||| 2 ^ b.toNat) 0

theorem testBit_byteMask (bs : List Byte) (op : Byte) : (byteMask bs).testBit op.toNat = true ↔ op ∈ bs := by
  induction bs with
  | nil => simp [byteMask]
  | cons b bs ih =>
    rw [List.mem_cons, ← ih, ← BitVec.toNat_inj, eq_comm (a := op.toNat), or_comm]
    simp [byteMask, Nat.testBit_two_pow]

/-- The opcodes of the table and the bytes of R112 share none of the 256 bytes and leave none out. -/
theorem opcodes_xor_undefinedOpcodes :
    byteMask (opTable.map OpRow.opcode) ^^^ byteMask undefinedOpcodes = 2 ^ 256 - 1 := by
  decide +kernel

/-- The bytes that are no row's opcode are those of R112. -/
theorem rowOf_eq_none_iff (op : Byte) : rowOf op = none ↔ op ∈ undefinedOpcodes := by
  have hrow : rowOf op = none ↔ op ∉ opTable.map OpRow.opcode := by
    simp [rowOf, List.find?_eq_none]
  have hxor := congrArg (Nat.testBit · op.toNat) opcodes_xor_undefinedOpcodes
  simp only [Nat.testBit_xor, Nat.testBit_two_pow_sub_one, op.isLt, decide_true, bne_iff_ne] at hxor
  rw [hrow, ← testBit_byteMask, ← testBit_byteMask, Bool.eq_not.2 hxor]
  simp

theorem decode_eq_undefinedOpcode_iff (op : Byte) (rest : List Byte) :
    decode (op :: rest) = .error (.undefinedOpcode op) ↔ rowOf op = none := by
  refine ⟨fun h => ?_, fun h => decode_undefined h rest⟩
  cases hr : rowOf op with
  | none => rfl
  | some r =>
    simp only [decode, hr] at h
    split at h <;> cases h

/-- Settles O2: what the decoder accepts is a row's encoding, which is `encode`'s; and it names an opcode
undefined when no row has it. -/
theorem decoderAcceptsExactlyTheEncodings : Obligations.DecoderAcceptsExactlyTheEncodings := by
  unfold Obligations.DecoderAcceptsExactlyTheEncodings
  exact ⟨fun _ _ _ => encode_of_decode, rfl,
    fun op rest => (decode_eq_undefinedOpcode_iff op rest).trans (rowOf_eq_none_iff op)⟩

/-- Settles O3: each word is a row's opcode and its operands, and the decoder computes the instruction. -/
theorem sampleWordsDecode : Obligations.SampleWordsDecode := by
  unfold Obligations.SampleWordsDecode
  exact ⟨rfl, rfl, rfl, rfl, rfl, rfl, rfl, rfl, rfl, rfl, rfl, rfl, rfl, rfl, rfl⟩

end Sys2Proof

namespace Sys2Proof.Machine

/-! ## What a step fetches and runs -/

/-- An encoding is as long as its first byte says (R100). -/
theorem length_of_rowEncodes {i : Instr} {bs : List Byte} (h : RowEncodes i bs) :
    bs.length = operandBytes (bs.headD 0) + 1 := by
  cases h with
  | noOperand hrow hlen hmake => simp [operandBytes, hrow, hlen]
  | oneByte hrow hlen b hmake => simp [operandBytes, hrow, hlen]
  | twoBytes hrow hlen lo hi hmake => simp [operandBytes, hrow, hlen]

/-- From memory, fetching the encoding of an instruction gives its bytes and only moves PC past them. -/
theorem fetchInstr_encode {i : Instr} {s : State} (hi : i.wellFormed = true)
    (h : ∀ k, k < (encode i).length → isMemory s.board (s.cpu.pc + BitVec.ofNat 16 k) = true ∧
      busByte (s.cpu.pc + BitVec.ofNat 16 k) s = (encode i).getD k 0) :
    fetchInstr s = (encode i, s.mapCpu (Cpu.setPc (s.cpu.pc + BitVec.ofNat 16 (encode i).length))) := by
  have hlen := length_of_rowEncodes (rowEncodes_encode hi)
  have hop : busByte s.cpu.pc s = (encode i).headD 0 := by
    simpa [List.headD_eq_head?_getD, List.head?_eq_getElem?] using (h 0 (by omega)).2
  calc fetchInstr s = fetchBytes (operandBytes (busByte s.cpu.pc s) + 1) s := rfl
    _ = fetchBytes (encode i).length s := by rw [hop, hlen]
    _ = _ := fetchBytes_memory (encode i) s h

/-- THE FETCHING STEP: the instruction its bytes decode to runs in the state the fetch leaves, then the clock. -/
theorem step_of_decode_fetchInstr {s : State} {i : Instr} (h : s.fetchDue)
    (hi : decode (fetchInstr s).1 = .ok (i, [])) : step s = clockOut (exec i (fetchInstr s).2) := by
  simp [step, turn, due_of_fetchDue h, fetch, hi]

/-- Settles O4: the fetch gives bytes that decode to `i`, from memory because they are its encoding; and
bytes that decode to `i` are its encoding, so PC has moved past as many. -/
theorem stepRunsTheDecodedInstruction : Obligations.StepRunsTheDecodedInstruction := by
  unfold Obligations.StepRunsTheDecodedInstruction
  refine ⟨fun s i hdue hi hmem => ?_, fun s i hdue hi => ⟨step_of_decode_fetchInstr hdue hi, ?_⟩⟩
  · have hfetch := fetchInstr_encode hi hmem
    have hdecode := decode_of_rowEncodes (rowEncodes_encode hi) []
    rw [step_of_decode_fetchInstr hdue (i := i) (by simpa [hfetch] using hdecode), hfetch]
    rfl
  · obtain ⟨hpc, -⟩ := fetchInstr_spec s
    obtain ⟨-, henc⟩ := encode_of_decode hi
    rw [hpc, ← henc, List.append_nil]

/-! ## Addresses as numbers -/

@[simp] theorem zext_toNat (b : Byte) : (zext b).toNat = b.toNat :=
  BitVec.toNat_setWidth_of_le (by decide)

theorem hiByte_toNat (w : Addr) : (hiByte w).toNat = w.toNat / 256 := by
  have := w.isLt
  simp only [hiByte, BitVec.toNat_setWidth, BitVec.toNat_ushiftRight, Nat.shiftRight_eq_div_pow]
  omega

theorem add_zext_toNat (w : Addr) (x : Byte) : (w + zext x).toNat = (w.toNat + x.toNat) % 65536 := by
  rw [BitVec.toNat_add, zext_toNat]

/-- Indexing leaves the page exactly when the low bytes carry (R106, R108). -/
theorem hiByte_add_zext_bne (w : Addr) (x : Byte) :
    (hiByte (w + zext x) != hiByte w) = decide (255 < w.toNat % 256 + x.toNat) := by
  have hw := w.isLt
  have hx := x.isLt
  rw [Bool.eq_iff_iff, bne_iff_ne, decide_eq_true_iff, ne_eq, ← BitVec.toNat_inj, hiByte_toNat, hiByte_toNat,
    add_zext_toNat]
  omega

theorem busByte_zext (b : Byte) (s : State) : busByte (zext b) s = s.ram.read b.toNat := by
  have hb := b.isLt
  rw [busByte_ram (by rw [zext_toNat]; omega), zext_toNat, Nat.mod_eq_of_lt (by omega)]

/-- A zero-page pointer, its high byte from the start of the page when its low byte is at the end (R107). -/
theorem zpPointer_toNat (b : Byte) (s : State) :
    (zpPointer b s).toNat =
      (s.ram.read b.toNat).toNat + 256 * (s.ram.read ((b.toNat + 1) % 256)).toNat := by
  rw [zpPointer, abs16_toNat, busByte_zext, busByte_zext, BitVec.toNat_add]
  rfl

/-- Settles O34: each mode's sum or pointer by its lemma, and the carry for the three modes that can cross. -/
theorem addressingModesGiveTheirAddress : Obligations.AddressingModesGiveTheirAddress := by
  unfold Obligations.AddressingModesGiveTheirAddress
  intro b w s ptr
  have hptr (p : Byte) : (zpPointer p s).toNat = ptr p.toNat := by
    rw [zpPointer_toNat]
    simp only [ptr, Nat.mod_eq_of_lt p.isLt]
  refine ⟨zext_toNat b, ?_, ?_, rfl, add_zext_toNat w _, add_zext_toNat w _, ?_, ?_, crossed_zp b s,
    crossed_zpx b s, crossed_zpy b s, crossed_abs w s, crossed_izx b s, hiByte_add_zext_bne w _,
    hiByte_add_zext_bne w _, ?_⟩
  · exact (zext_toNat _).trans (BitVec.toNat_add b s.cpu.x)
  · exact (zext_toNat _).trans (BitVec.toNat_add b s.cpu.y)
  · exact (hptr _).trans (by simp [ptr, BitVec.toNat_add])
  · exact (add_zext_toNat _ _).trans (by rw [hptr])
  · exact (hiByte_add_zext_bne _ _).trans (by rw [hptr])

/-! ## Cycle counts -/

/-- `cyc` and the tally. -/
def Cpu.counts (c : Cpu) : Nat × Nat := (c.cyc, c.cycles)

/-- The mnemonics that write memory at an address of their operand, which may be `$4014` (R391). -/
def dmaStarters : List String := ["STA", "STX", "STY", "INC", "DEC", "ASL", "LSR", "ROL", "ROR"]

/-- From `s` to `t` an instruction of row `r` leaves `cyc` and sets the tally as the row allows: its base count,
and beyond it a page cross, a taken branch or the stall of OAM DMA (R101, R115, R391). -/
def RowCounts (r : OpRow) (s t : State) : Prop :=
  t.cpu.cyc = s.cpu.cyc ∧
    (t.cpu.cycles = r.cycles ∨ r.penalty = .pageCross ∧ t.cpu.cycles = r.cycles + 1 ∨
      r.penalty = .branch ∧ (t.cpu.cycles = r.cycles + 1 ∨ t.cpu.cycles = r.cycles + 2) ∨
      r.mnemonic ∈ dmaStarters ∧ (t.cpu.cycles = r.cycles + 513 ∨ t.cpu.cycles = r.cycles + 514))

namespace RowCounts

variable {r : OpRow} {s t : State}

/-- A shape with no penalty and no stall takes the base count. -/
theorem of_counts (h : t.cpu.counts = (s.cpu.cyc, r.cycles)) : RowCounts r s t :=
  ⟨congrArg Prod.fst h, .inl (congrArg Prod.snd h)⟩

/-- A write adds nothing to the base count, or the stall. -/
theorem of_memWrite {u : State} {a : Addr} {v : Byte} (hr : r.mnemonic ∈ dmaStarters)
    (hu : u.cpu.counts = (s.cpu.cyc, r.cycles)) (ht : t.cpu.counts = (memWrite a v u).cpu.counts) :
    RowCounts r s t := by
  simp only [Cpu.counts, Prod.mk.injEq, memWrite_cpu_cyc] at hu ht
  obtain ⟨hcyc, hcycles⟩ := hu
  obtain ⟨htcyc, htcycles⟩ := ht
  have hstall := memWrite_cycles_cases a v u
  rw [← htcycles, hcycles] at hstall
  exact ⟨htcyc.trans hcyc, hstall.imp_right fun h => .inr (.inr ⟨hr, h⟩)⟩

theorem storeMem {m : AddrMode} {val : Cpu → Byte} (hr : r.mnemonic ∈ dmaStarters) :
    RowCounts r s (storeMem r.cycles m val s) :=
  of_memWrite hr (u := s.start r.cycles) rfl rfl

theorem modifyMem {m : AddrMode} {res : Bool → Byte → Byte} {fl : Byte → Byte → Cpu → Cpu}
    (hr : r.mnemonic ∈ dmaStarters) (hfl : ∀ v v' c, (fl v v' c).counts = c.counts) :
    RowCounts r s (modifyMem r.cycles m res fl s) :=
  of_memWrite hr (u := (afterRead (m.ea s) s).start r.cycles) (by simp [Cpu.counts])
    (by rw [modifyMem_cpu, hfl])

/-- A read adds the penalty, where its mode can cross a page the row's own. -/
theorem readMem {m : AddrMode} {f : Byte → Cpu → Cpu} (hf : ∀ v c, (f v c).counts = c.counts)
    (h : m.crossed s = false ∨ r.penalty = .pageCross) : RowCounts r s (readMem r.cycles m f s) := by
  have hread := hf (busByte (m.ea s) s) ((afterRead (m.ea s) s).cpu.setCycles r.cycles)
  simp only [Cpu.counts, Prod.mk.injEq, Cpu.setCycles_cyc, Cpu.setCycles_cycles, afterRead_cpu_cyc] at hread
  obtain ⟨hcyc, hcycles⟩ := hread
  refine ⟨by simpa using hcyc, ?_⟩
  rw [readMem_cpu, Cpu.addCycles_cycles, hcycles]
  rcases h with h | h
  · simp [h]
  · cases m.crossed s <;> simp [h]

theorem branch {cond : Cpu → Bool} {d : Int} (hr : r.cycles = 2) (hp : r.penalty = .branch) :
    RowCounts r s (branch cond d s) := by
  refine ⟨by simp [branch_cpu], ?_⟩
  rw [branch_cpu, Cpu.setCycles_cycles, hr]
  split
  · split <;> simp [hp]
  · simp

end RowCounts

/-- EVERY INSTRUCTION has a row under the first byte of its encoding, and `exec` counts as the row allows. -/
theorem exec_rowCounts (i : Instr) (s : State) :
    ∃ op operands r t, encode i = op :: operands ∧ rowOf op = some r ∧ exec i s = .next t ∧ RowCounts r s t := by
  cases i
  all_goals refine ⟨_, _, _, _, rfl, rfl, rfl, ?_⟩
  case ldaImm | ldxImm | ldyImm | tax | tay | txa | tya | tsx | txs | adcImm | sbcImm | andImm | oraImm | eorImm |
      cmpImm | cpxImm | cpyImm | inx | iny | dex | dey | aslAcc | lsrAcc | rolAcc | rorAcc | jmpAbs | clc | sec |
      cli | sei | clv | cld | sed | nop =>
    exact .of_counts rfl
  case ldaIzx | ldaZp | ldaAbs | ldaZpx | ldxZp | ldxAbs | ldxZpy | ldyZp | ldyAbs | ldyZpx | adcIzx | adcZp |
      adcAbs | adcZpx | sbcIzx | sbcZp | sbcAbs | sbcZpx | andIzx | andZp | andAbs | andZpx | oraIzx | oraZp |
      oraAbs | oraZpx | eorIzx | eorZp | eorAbs | eorZpx | cmpIzx | cmpZp | cmpAbs | cmpZpx | cpxZp | cpxAbs |
      cpyZp | cpyAbs | bitZp | bitAbs =>
    exact .readMem (fun _ _ => rfl) (.inl (by simp))
  case ldaIzy | ldaAby | ldaAbx | ldxAby | ldyAbx | adcIzy | adcAby | adcAbx | sbcIzy | sbcAby | sbcAbx | andIzy |
      andAby | andAbx | oraIzy | oraAby | oraAbx | eorIzy | eorAby | eorAbx | cmpIzy | cmpAby | cmpAbx =>
    exact .readMem (fun _ _ => rfl) (.inr rfl)
  case staIzx | staZp | staAbs | staIzy | staZpx | staAby | staAbx | stxZp | stxAbs | stxZpy | styZp | styAbs |
      styZpx =>
    exact .storeMem (by decide)
  case incZp | incAbs | incZpx | incAbx | decZp | decAbs | decZpx | decAbx | aslZp | aslAbs | aslZpx | aslAbx |
      lsrZp | lsrAbs | lsrZpx | lsrAbx | rolZp | rolAbs | rolZpx | rolAbx | rorZp | rorAbs | rorZpx | rorAbx =>
    exact .modifyMem (by decide) (fun _ _ _ => rfl)
  case bcc | bcs | beq | bmi | bne | bpl | bvc | bvs =>
    exact .branch rfl rfl
  case pha | php => exact .of_counts (by simp [pushReg, push_eq, Cpu.counts])
  case pla | plp => exact .of_counts (by simp [pullReg, pull_eq, Cpu.counts, loadA])
  case jmpInd => exact .of_counts (by simp [jumpIndirect, indirectTarget, Cpu.counts])
  case jsr => exact .of_counts (by simp [callSubroutine, push_eq, Cpu.counts])
  case rts => exact .of_counts (by simp [returnFromSubroutine, pull_eq, Cpu.counts])
  case brk => exact .of_counts (by simp [softwareInterrupt, interrupt, memRead16, push_eq, Cpu.counts])
  case rti => exact .of_counts (by simp [returnFromInterrupt, pull_eq, Cpu.counts])

/-- Settles O35: the shape of each instruction counts as its row allows. -/
theorem everyInstructionCompletesInItsCycles : Obligations.EveryInstructionCompletesInItsCycles := by
  unfold Obligations.EveryInstructionCompletesInItsCycles
  intro i s
  obtain ⟨op, operands, r, t, henc, hrow, hexec, hcyc, hcycles⟩ := exec_rowCounts i s
  exact ⟨t, r, hexec, by rw [henc]; exact hrow, hcyc, hcycles⟩

end Sys2Proof.Machine

namespace Sys2Proof.Machine

open Sys2Proof.Spec (tally stall isZero isNeg)

/-! ## The shapes of loads and stores, whole -/

/-- A CPU with the same registers, flags and `cyc` differs in the tally and the NMI latches at most. -/
theorem Cpu.eq_of_registers {c c' : Cpu} (h : c'.registers = c.registers) (hcyc : c'.cyc = c.cyc) :
    c' = { c with cycles := c'.cycles, nmiPrev := c'.nmiPrev, nmiPending := c'.nmiPending } := by
  cases c
  cases c'
  simp_all [Cpu.registers]

/-- A write adds the stall of R391, which is 0 at every address but `$4014`. -/
theorem memWrite_cycles (a : Addr) (v : Byte) (s : State) :
    (memWrite a v s).cpu.cycles = s.cpu.cycles + stall a s.cpu.cyc s.cpu.cycles := by
  by_cases ha : a = 0x4014#16
  · subst ha
    exact memWrite_dma_cycles v s
  · rw [memWrite_cpu_cycles ha, stall, if_neg ha, Nat.add_zero]

/-- Of the CPU a write changes the tally and the NMI latches alone. -/
theorem memWrite_cpu (a : Addr) (v : Byte) (s : State) :
    (memWrite a v s).cpu =
      { s.cpu with
        cycles := s.cpu.cycles + stall a s.cpu.cyc s.cpu.cycles
        nmiPrev := (memWrite a v s).cpu.nmiPrev, nmiPending := (memWrite a v s).cpu.nmiPending } := by
  rw [← memWrite_cycles a v s]
  exact Cpu.eq_of_registers (memWrite_registers a v s) (memWrite_cpu_cyc a v s)

/-- Which bytes a write stores to does not depend on the CPU. -/
@[simp] theorem storesTo_tally (a : Addr) (k : Nat) (s : State) (c : Cell) :
    storesTo a (tally k s) c ↔ storesTo a s c := Iff.rfl

@[simp] theorem cell_tally (k : Nat) (s : State) (c : Cell) : (tally k s).cell c = s.cell c :=
  start_cell k s c

/-- A STORE, once: one write of the register, begun at the base count (R143 to R145). -/
theorem storeMem_eq (k : Nat) (m : AddrMode) (val : Cpu → Byte) (s : State) :
    storeMem k m val s = memWrite (m.ea s) (val s.cpu) (tally k s) := rfl

/-- A READ, whole: the operand's effect on the CPU its read leaves, then the count with the penalty, for an
effect that does not look at the tally (R119). -/
theorem readMem_eq {f : Byte → Cpu → Cpu} (hf : ∀ v k c, f v (c.setCycles k) = (f v c).setCycles k) (k : Nat)
    (m : AddrMode) (s : State) :
    readMem k m f s =
      (afterRead (m.ea s) s).mapCpu
        (fun c => (f (busByte (m.ea s) s) c).setCycles (k + if m.crossed s then 1 else 0)) := by
  simp only [readMem, memRead_fst, memRead_snd, busByte_start, afterRead_start]
  simp only [State.start, State.mapCpu_mapCpu, hf]
  cases m.crossed s <;> rfl

/-! ## `SetNZ` and the loads in the spec's numbers (R9) -/

theorem isZero_eq_beq (v : Byte) : isZero v = (v == 0) := by
  rw [isZero, Bool.eq_iff_iff, decide_eq_true_iff, beq_iff_eq, ← BitVec.toNat_inj]
  rfl

theorem isNeg_eq_msb (v : Byte) : isNeg v = v.msb := (BitVec.msb_eq_decide v).symm

theorem Cpu.setNZ_eq (v : Byte) (c : Cpu) : c.setNZ v = { c with z := isZero v, n := isNeg v } := by
  rw [isZero_eq_beq, isNeg_eq_msb]
  rfl

theorem loadA_eq : loadA = fun m c => { c with a := m, z := isZero m, n := isNeg m } :=
  funext₂ fun m c => (c.setA m).setNZ_eq m

theorem loadX_eq : loadX = fun m c => { c with x := m, z := isZero m, n := isNeg m } :=
  funext₂ fun m c => (c.setX m).setNZ_eq m

theorem loadY_eq : loadY = fun m c => { c with y := m, z := isZero m, n := isNeg m } :=
  funext₂ fun m c => (c.setY m).setNZ_eq m

end Sys2Proof.Machine

namespace Sys2Proof.Spec

open Sys2Proof.Machine

/-! ## The forms of a reading instruction -/

/-- The model's shape for a form whose operation is `op` (R104, R119). -/
def ReadForm.run (f : ReadForm) (op : Byte → Cpu → Cpu) (s : State) : State :=
  match f.src with
  | .imm b => readImm f.base b op s
  | .mem m => readMem f.base m op s

/-- The form carries `+p` if its operand can lie in another page than its base address (R115). -/
def ReadForm.PenaltyFits (f : ReadForm) : Prop := f.plus = false → ∀ s, f.src.crossed s = false

/-- The model's shape leaves what the form says, for an operation that does not look at the tally. -/
theorem ReadForm.run_eq_result {f : ReadForm} (hf : f.PenaltyFits) {op : Byte → Cpu → Cpu}
    (hop : ∀ v k c, op v (c.setCycles k) = (op v c).setCycles k) (s : State) : f.run op s = f.result op s := by
  have hpenalty : (f.plus && f.src.crossed s) = f.src.crossed s := by
    cases hplus : f.plus with
    | true => rfl
    | false => rw [hf hplus s, Bool.and_false]
  unfold ReadForm.result
  rw [hpenalty]
  obtain ⟨i, base, plus, b | m⟩ := f
  · exact congrArg (fun c => { s with cpu := c }) (hop b base s.cpu)
  · exact readMem_eq hop base m s

theorem eightForms_penaltyFits {imm zp zpx : Byte → Instr} {abs abx aby : Addr → Instr} {izx izy : Byte → Instr}
    (b : Byte) (w : Addr) : ∀ f ∈ eightForms imm zp zpx abs abx aby izx izy b w, f.PenaltyFits := by
  simp [eightForms, ReadForm.PenaltyFits, Source.crossed]

theorem ldxForms_penaltyFits (b : Byte) (w : Addr) : ∀ f ∈ ldxForms b w, f.PenaltyFits := by
  simp [ldxForms, ReadForm.PenaltyFits, Source.crossed]

theorem ldyForms_penaltyFits (b : Byte) (w : Addr) : ∀ f ∈ ldyForms b w, f.PenaltyFits := by
  simp [ldyForms, ReadForm.PenaltyFits, Source.crossed]

theorem exec_ldaForms (b : Byte) (w : Addr) (s : State) :
    ∀ f ∈ ldaForms b w, exec f.instr s = .next (f.run loadA s) := by
  simp only [ldaForms, eightForms, List.forall_mem_cons]
  exact ⟨rfl, rfl, rfl, rfl, rfl, rfl, rfl, rfl, List.forall_mem_nil _⟩

theorem exec_ldxForms (b : Byte) (w : Addr) (s : State) :
    ∀ f ∈ ldxForms b w, exec f.instr s = .next (f.run loadX s) := by
  simp only [ldxForms, List.forall_mem_cons]
  exact ⟨rfl, rfl, rfl, rfl, rfl, List.forall_mem_nil _⟩

theorem exec_ldyForms (b : Byte) (w : Addr) (s : State) :
    ∀ f ∈ ldyForms b w, exec f.instr s = .next (f.run loadY s) := by
  simp only [ldyForms, List.forall_mem_cons]
  exact ⟨rfl, rfl, rfl, rfl, rfl, List.forall_mem_nil _⟩

/-- Settles O15: each form is the model's reading shape at its load, and that shape leaves what the form
says. -/
theorem loadsPutTheOperandInTheRegister : Obligations.LoadsPutTheOperandInTheRegister := by
  unfold Obligations.LoadsPutTheOperandInTheRegister
  intro b w s
  rw [← loadA_eq, ← loadX_eq, ← loadY_eq]
  refine ⟨fun f hf => ?_, fun f hf => ?_, fun f hf => ?_⟩
  · rw [exec_ldaForms b w s f hf, ReadForm.run_eq_result (eightForms_penaltyFits b w f hf) (fun _ _ _ => rfl)]
  · rw [exec_ldxForms b w s f hf, ReadForm.run_eq_result (ldxForms_penaltyFits b w f hf) (fun _ _ _ => rfl)]
  · rw [exec_ldyForms b w s f hf, ReadForm.run_eq_result (ldyForms_penaltyFits b w f hf) (fun _ _ _ => rfl)]

/-! ## Stores -/

theorem exec_storeForms (b : Byte) (w : Addr) (s : State) :
    ∀ f ∈ storeForms b w, exec f.instr s = .next (storeMem f.base f.mode f.val s) := by
  simp only [storeForms, List.forall_mem_cons]
  exact ⟨rfl, rfl, rfl, rfl, rfl, rfl, rfl, rfl, rfl, rfl, rfl, rfl, rfl, List.forall_mem_nil _⟩

/-- Settles O16: each form is the model's storing shape, and the rest is the frame of its one write. -/
theorem storesWriteOneByteAndChangeNoFlag : Obligations.StoresWriteOneByteAndChangeNoFlag := by
  unfold Obligations.StoresWriteOneByteAndChangeNoFlag
  intro b w s f hf t
  refine ⟨?_, memWrite_cpu _ _ (tally f.base s), memWrite_ports _ _ _, fun c hc => ?_⟩
  · rw [exec_storeForms b w s f hf, storeMem_eq]
  · rw [cell_memWrite _ _ _ c (by rwa [storesTo_tally]), cell_tally]

/-! ## Transfers -/

/-- Settles O17: each transfer is one change of the CPU, with `SetNZ` of the byte copied but for TXS. -/
theorem transfersCopyARegister : Obligations.TransfersCopyARegister := by
  unfold Obligations.TransfersCopyARegister
  intro s
  simp only [isZero_eq_beq, isNeg_eq_msb]
  exact ⟨rfl, rfl, rfl, rfl, rfl, rfl⟩

end Sys2Proof.Spec

namespace Sys2Proof.Spec

open Sys2Proof.Machine

/-! ## The stack in the spec's numbers (R22, R160, R161) -/

theorem pushCell_eq (s : Byte) {k : Nat} (hk : k ≤ 256) :
    pushCell s k = 0x100 + (s - BitVec.ofNat 8 k).toNat := by
  rw [pushCell, BitVec.toNat_sub, BitVec.toNat_ofNat]
  omega

theorem pullCell_eq (s : Byte) (k : Nat) : pullCell s k = 0x100 + (s + BitVec.ofNat 8 k).toNat := by
  rw [pullCell, BitVec.toNat_add, BitVec.toNat_ofNat, Nat.add_mod_mod]

/-- A PUSHING INSTRUCTION, whole: one cell of the stack page, S, and the count. -/
theorem pushReg_eq (k : Nat) (f : Cpu → Byte) (s : State) :
    pushReg k f s =
      { s with
        ram := s.ram.write (pushCell s.cpu.s 0) (f s.cpu)
        cpu := { s.cpu with s := s.cpu.s - 1, cycles := k } } := by
  rw [pushReg, push_eq, pushCell_eq _ (Nat.zero_le _), BitVec.sub_zero]
  rfl

/-- A PULLING INSTRUCTION, whole: the byte's effect on the CPU whose S and count are already moved. -/
theorem pullReg_eq (k : Nat) (f : Byte → Cpu → Cpu) (s : State) :
    pullReg k f s =
      { s with
        cpu := f (s.ram.read (pullCell s.cpu.s 1)) { s.cpu with s := s.cpu.s + 1, cycles := k } } := by
  rw [pullReg, pull_eq, pullCell_eq]
  rfl

/-- Settles O18: the one push and the one pull, with the load of A for its effect. -/
theorem phaAndPlaUseTheStackPage : Obligations.PhaAndPlaUseTheStackPage := by
  unfold Obligations.PhaAndPlaUseTheStackPage
  intro s
  have hpha : exec .pha s = .next (pushReg 3 Cpu.a s) := rfl
  have hpla : exec .pla s = .next (pullReg 4 loadA s) := rfl
  rw [hpha, hpla, pushReg_eq, pullReg_eq, loadA_eq]
  exact ⟨rfl, rfl⟩

/-! ## The status byte in the spec's numbers (R25) -/

/-- The bits of the pushed byte stand apart, so that their `or` is their sum. -/
theorem pushedP_eq_statusByte (b : Bool) (c : Cpu) : c.pushedP b = statusByte c b := by
  simp only [Cpu.pushedP, Cpu.p, statusByte]
  generalize c.n = n, c.v = v, c.d = d, c.i = i, c.z = z, c.c = carry
  revert b n v d i z carry
  decide

theorem getLsbD_eq_decide (m : Byte) (i : Nat) : m.getLsbD i = decide (m.toNat / 2 ^ i % 2 = 1) :=
  Nat.testBit_eq_decide_div_mod_eq

theorem setP_eq_pulled (m : Byte) (c : Cpu) : c.setP m = pulled c m := by
  have h7 : m.getLsbD 7 = decide (128 ≤ m.toNat) := BitVec.msb_eq_decide m
  simp only [Cpu.setP, pulled, h7, getLsbD_eq_decide, Nat.pow_zero, Nat.div_one, Nat.reducePow]

/-- Settles O19: the push of the status byte, and the pull with the six flags for its effect. -/
theorem phpAndPlpMoveTheFlags : Obligations.PhpAndPlpMoveTheFlags := by
  unfold Obligations.PhpAndPlpMoveTheFlags
  intro s
  have hphp : exec .php s = .next (pushReg 3 (Cpu.pushedP true) s) := rfl
  have hplp : exec .plp s = .next (pullReg 4 Cpu.setP s) := rfl
  rw [hphp, hplp, pushReg_eq, pullReg_eq, pushedP_eq_statusByte, setP_eq_pulled]
  exact ⟨rfl, rfl⟩

end Sys2Proof.Spec

namespace Sys2Proof.Spec

open Sys2Proof.Machine

/-! ## A family of reading forms, once -/

/-- A family whose arms are, form for form, the model's reading shape at `op` leaves what its forms say,
where the spec's operation `g` is `op` and does not look at the tally. -/
theorem exec_forms_eq_result {fs : List ReadForm} {op g : Byte → Cpu → Cpu} {s : State}
    (harms : fs.map (fun f => exec f.instr s) = fs.map (fun f => .next (f.run op s)))
    (hpenalty : ∀ f ∈ fs, f.PenaltyFits) (hop : op = g)
    (htally : ∀ v k c, op v (c.setCycles k) = (op v c).setCycles k) :
    ∀ f ∈ fs, exec f.instr s = .next (f.result g s) := by
  intro f hf
  rw [List.map_inj_left.mp harms f hf, ReadForm.run_eq_result (hpenalty f hf) htally, hop]

/-! ## `AddWithCarry` in numbers (R179) -/

theorem addOverflow_eq_msb (a m r : Byte) : addOverflow a m r = (a.msb == m.msb && a.msb != r.msb) := by
  have hmask : ∀ x : Byte, ((x &&& 0x80) != 0) = x.msb := by decide
  rw [addOverflow, hmask, BitVec.msb_and, BitVec.msb_not, BitVec.msb_xor, BitVec.msb_xor]
  cases a.msb <;> cases m.msb <;> cases r.msb <;> rfl

/-- V of R179 is the signed overflow: only operands of one sign can leave -128 to 127, and then the wrapped
sum has the other sign. -/
theorem addOverflow_eq_signed (a m : Byte) (k : Bool) :
    addOverflow a m (BitVec.ofNat 8 (addSum a m k)) =
      decide (s8 a + s8 m + (k.toNat : Int) < -128 ∨ 127 < s8 a + s8 m + (k.toNat : Int)) := by
  have hk := k.toNat_le
  have ha := a.isLt
  have hm := m.isLt
  rw [addOverflow_eq_msb, Bool.eq_iff_iff, decide_eq_true_iff]
  simp only [BitVec.msb_eq_decide, BitVec.toNat_ofNat, addSum, Bool.and_eq_true, beq_iff_eq, bne_iff_ne, ne_eq,
    decide_eq_decide]
  unfold s8
  split <;> split <;> omega

theorem addWithCarry_eq (m : Byte) (c : Cpu) :
    c.addWithCarry m =
      { c with
        a := BitVec.ofNat 8 (addSum c.a m c.c), c := decide (255 < addSum c.a m c.c)
        v := decide (s8 c.a + s8 m + (c.c.toNat : Int) < -128 ∨ 127 < s8 c.a + s8 m + (c.c.toNat : Int))
        z := isZero (BitVec.ofNat 8 (addSum c.a m c.c)), n := isNeg (BitVec.ofNat 8 (addSum c.a m c.c)) } := by
  rw [← addOverflow_eq_signed, isZero_eq_beq, isNeg_eq_msb]
  rfl

/-- Settles O20: `AddWithCarry` in numbers, at the eight forms of ADC. -/
theorem adcAddsWithCarryInBinary : Obligations.AdcAddsWithCarryInBinary := by
  unfold Obligations.AdcAddsWithCarryInBinary
  intro b w s
  exact exec_forms_eq_result (op := adc) rfl (eightForms_penaltyFits b w) (funext₂ addWithCarry_eq)
    (fun _ _ _ => rfl)

/-! ## SBC: the complement carries the borrow (R171) -/

theorem toNat_xor_ff (m : Byte) : (m ^^^ 0xFF).toNat = 255 - m.toNat := by
  rw [show (0xFF : Byte) = BitVec.allOnes 8 from rfl, BitVec.xor_allOnes, BitVec.toNat_not]

/-- In two's complement `~m` is `-1 - m`. -/
theorem s8_xor_ff (m : Byte) : s8 (m ^^^ 0xFF) = -1 - s8 m := by
  have hm := m.isLt
  rw [s8, s8, toNat_xor_ff]
  split <;> split <;> omega

/-- `1 - C`: what SBC takes besides the operand (R171). -/
def borrow (k : Bool) : Int := if k then 0 else 1

theorem toNat_eq_one_sub_borrow (k : Bool) : (k.toNat : Int) = 1 - borrow k := by
  cases k <;> rfl

/-- Adding the complement is subtracting, above 256. -/
theorem addSum_xor_ff (a m : Byte) (k : Bool) :
    (addSum a (m ^^^ 0xFF) k : Int) = (a.toNat : Int) - m.toNat - borrow k + 256 := by
  have hm := m.isLt
  have hk := toNat_eq_one_sub_borrow k
  rw [addSum, toNat_xor_ff]
  omega

theorem ofNat_addSum_xor_ff (a m : Byte) (k : Bool) :
    BitVec.ofNat 8 (addSum a (m ^^^ 0xFF) k) = BitVec.ofInt 8 ((a.toNat : Int) - m.toNat - borrow k) := by
  rw [← BitVec.ofInt_natCast, addSum_xor_ff, BitVec.ofInt_add]
  exact BitVec.add_zero _

theorem sbc_eq (m : Byte) (c : Cpu) :
    sbc m c =
      { c with
        a := BitVec.ofInt 8 ((c.a.toNat : Int) - m.toNat - borrow c.c)
        c := decide (0 ≤ (c.a.toNat : Int) - m.toNat - borrow c.c)
        v := decide (s8 c.a - s8 m - borrow c.c < -128 ∨ 127 < s8 c.a - s8 m - borrow c.c)
        z := isZero (BitVec.ofInt 8 ((c.a.toNat : Int) - m.toNat - borrow c.c))
        n := isNeg (BitVec.ofInt 8 ((c.a.toNat : Int) - m.toNat - borrow c.c)) } := by
  have hsum := addSum_xor_ff c.a m c.c
  have hcarry : 255 < addSum c.a (m ^^^ 0xFF) c.c ↔ 0 ≤ (c.a.toNat : Int) - m.toNat - borrow c.c := by omega
  have hsigned : s8 c.a + s8 (m ^^^ 0xFF) + (c.c.toNat : Int) = s8 c.a - s8 m - borrow c.c := by
    rw [s8_xor_ff, toNat_eq_one_sub_borrow]
    omega
  rw [sbc, addWithCarry_eq, ofNat_addSum_xor_ff, hsigned, decide_eq_decide.mpr hcarry]

/-- Settles O21: `AddWithCarry` of the complement in numbers, at the eight forms of SBC. -/
theorem sbcSubtractsWithBorrowInBinary : Obligations.SbcSubtractsWithBorrowInBinary := by
  unfold Obligations.SbcSubtractsWithBorrowInBinary
  intro b w s
  exact exec_forms_eq_result (op := sbc) rfl (eightForms_penaltyFits b w) (funext₂ sbc_eq)
    (fun _ _ _ => rfl)

/-! ## AND, ORA, EOR (R172 to R174) -/

/-- Settles O22: each operation writes A and then runs `SetNZ`, at its eight forms. -/
theorem logicWritesTheAccumulator : Obligations.LogicWritesTheAccumulator := by
  unfold Obligations.LogicWritesTheAccumulator
  intro b w s
  have hwrite (r : Byte) (c : Cpu) : (c.setA r).setNZ r = { c with a := r, z := isZero r, n := isNeg r } :=
    (c.setA r).setNZ_eq r
  refine ⟨?_, ?_, ?_⟩
  · exact exec_forms_eq_result (op := andA) rfl (eightForms_penaltyFits b w) (funext₂ fun _ _ => hwrite _ _)
      (fun _ _ _ => rfl)
  · exact exec_forms_eq_result (op := oraA) rfl (eightForms_penaltyFits b w) (funext₂ fun _ _ => hwrite _ _)
      (fun _ _ _ => rfl)
  · exact exec_forms_eq_result (op := eorA) rfl (eightForms_penaltyFits b w) (funext₂ fun _ _ => hwrite _ _)
      (fun _ _ _ => rfl)

/-! ## CMP, CPX, CPY (R175 to R177, R180) -/

theorem cpxForms_penaltyFits (b : Byte) (w : Addr) : ∀ f ∈ cpxForms b w, f.PenaltyFits := by
  simp [cpxForms, ReadForm.PenaltyFits, Source.crossed]

theorem cpyForms_penaltyFits (b : Byte) (w : Addr) : ∀ f ∈ cpyForms b w, f.PenaltyFits := by
  simp [cpyForms, ReadForm.PenaltyFits, Source.crossed]

theorem compare_eq (r m : Byte) (c : Cpu) :
    c.compare r m =
      { c with
        c := decide (m.toNat ≤ r.toNat), z := decide (r.toNat = m.toNat)
        n := decide (128 ≤ (r.toNat + (256 - m.toNat)) % 256) } := by
  have hz : (r == m) = decide (r.toNat = m.toNat) := by
    rw [Bool.eq_iff_iff, beq_iff_eq, decide_eq_true_iff, BitVec.toNat_inj]
  have hn : (r - m).msb = decide (128 ≤ (r.toNat + (256 - m.toNat)) % 256) := by
    rw [BitVec.msb_eq_decide, BitVec.toNat_sub, Nat.add_comm]
  rw [Cpu.compare, hz, hn]

/-- Settles O23: `Compare` in numbers, at the forms of the three compares. -/
theorem comparesSetCarryZeroNegative : Obligations.ComparesSetCarryZeroNegative := by
  unfold Obligations.ComparesSetCarryZeroNegative
  intro b w s
  refine ⟨?_, ?_, ?_⟩
  · exact exec_forms_eq_result (op := cmpA) rfl (eightForms_penaltyFits b w)
      (funext₂ fun m c => compare_eq c.a m c) (fun _ _ _ => rfl)
  · exact exec_forms_eq_result (op := cmpX) rfl (cpxForms_penaltyFits b w)
      (funext₂ fun m c => compare_eq c.x m c) (fun _ _ _ => rfl)
  · exact exec_forms_eq_result (op := cmpY) rfl (cpyForms_penaltyFits b w)
      (funext₂ fun m c => compare_eq c.y m c) (fun _ _ _ => rfl)

/-! ## BIT (R178) -/

theorem bitForms_penaltyFits (b : Byte) (w : Addr) : ∀ f ∈ bitForms b w, f.PenaltyFits := by
  simp [bitForms, ReadForm.PenaltyFits, Source.crossed]

theorem bitTest_eq (m : Byte) (c : Cpu) :
    c.bitTest m =
      { c with
        z := isZero (c.a &&& m)
        n := decide (128 ≤ m.toNat), v := decide (m.toNat / 64 % 2 = 1) } := by
  have hn : m.getLsbD 7 = decide (128 ≤ m.toNat) := BitVec.msb_eq_decide m
  have hv : m.getLsbD 6 = decide (m.toNat / 64 % 2 = 1) := getLsbD_eq_decide m 6
  rw [Cpu.bitTest, isZero_eq_beq, hn, hv]

/-- Settles O24: BIT's flags in numbers, at its two forms. -/
theorem bitTestsTheOperand : Obligations.BitTestsTheOperand := by
  unfold Obligations.BitTestsTheOperand
  intro b w s
  exact exec_forms_eq_result (op := Cpu.bitTest) rfl (bitForms_penaltyFits b w) (funext₂ bitTest_eq)
    (fun _ _ _ => rfl)

end Sys2Proof.Spec

namespace Sys2Proof.Machine

open Sys2Proof.Spec (tally stall isZero isNeg shifted)

/-! ## The read-modify-write shape, whole (R200) -/

/-- Of the CPU a read-modify-write's flags touch C, Z and N alone. -/
theorem modifyOp_flags_eq {mn : String} {res : Bool → Byte → Byte} {fl : Byte → Byte → Cpu → Cpu}
    (h : ModifyOp mn res fl) (m r : Byte) (c : Cpu) :
    fl m r c = { c with c := (fl m r c).c, z := (fl m r c).z, n := (fl m r c).n } := by
  cases h with
  | inc | dec => rfl
  | shift h => cases h <;> rfl

/-- A READ-MODIFY-WRITE, whole: one read, one write of the same address begun at the base count, then the
flags; the new byte is made from the C and the byte before. -/
theorem modifyMem_eq (k : Nat) (m : AddrMode) (res : Bool → Byte → Byte) (fl : Byte → Byte → Cpu → Cpu)
    (s : State) :
    modifyMem k m res fl s =
      (memWrite (m.ea s) (res s.cpu.c (busByte (m.ea s) s)) (tally k (afterRead (m.ea s) s))).mapCpu
        (fl (busByte (m.ea s) s) (res s.cpu.c (busByte (m.ea s) s))) := by
  simp only [modifyMem, memRead_fst, memRead_snd, busByte_start, afterRead_start, start_cpu, Cpu.setCycles_c,
    afterRead_cpu_c]
  rfl

/-- Of the CPU a read-modify-write of memory changes C, Z, N, the tally and the NMI latches alone; the tally is
the base count and the stall of R391. -/
theorem modifyMem_cpu_frame {mn : String} {res : Bool → Byte → Byte} {fl : Byte → Byte → Cpu → Cpu}
    (h : ModifyOp mn res fl) (k : Nat) (m : AddrMode) (s : State) :
    ∃ carry z n prev pending, (modifyMem k m res fl s).cpu =
      { s.cpu with
        c := carry, z := z, n := n, nmiPrev := prev, nmiPending := pending
        cycles := k + stall (m.ea s) s.cpu.cyc k } := by
  rw [modifyMem_cpu, modifyOp_flags_eq h, memWrite_cpu, start_cpu, afterRead_cpu]
  exact ⟨_, _, _, _, _, rfl⟩

/-- The frame of the bytes: only the write stores, in the state after the read. -/
theorem cell_modifyMem {m : AddrMode} {s : State} {c : Cell}
    (hc : ¬ storesTo (m.ea s) (afterRead (m.ea s) s) c) (k : Nat) (res : Bool → Byte → Byte)
    (fl : Byte → Byte → Cpu → Cpu) : (modifyMem k m res fl s).cell c = s.cell c := by
  rw [modifyMem_eq, cell_mapCpu, cell_memWrite _ _ _ c (by rwa [storesTo_tally]), cell_tally, cell_afterRead]

/-! ## The new bytes and the flags in the spec's numbers (R190, R191, R196 to R199) -/

theorem incRes_eq (k : Bool) (m : Byte) : incRes k m = BitVec.ofNat 8 (m.toNat + 1) := by
  apply BitVec.eq_of_toNat_eq
  simp [incRes]

theorem decRes_eq (k : Bool) (m : Byte) : decRes k m = BitVec.ofNat 8 (m.toNat + 255) := by
  apply BitVec.eq_of_toNat_eq
  simp [decRes, BitVec.toNat_sub, Nat.add_comm]

theorem aslRes_eq (k : Bool) (m : Byte) : aslRes k m = BitVec.ofNat 8 (2 * m.toNat) := by
  apply BitVec.eq_of_toNat_eq
  simp [aslRes, aslResult, Nat.shiftLeft_eq, Nat.mul_comm]

theorem lsrRes_eq (k : Bool) (m : Byte) : lsrRes k m = BitVec.ofNat 8 (m.toNat / 2) := by
  have hm := m.isLt
  apply BitVec.eq_of_toNat_eq
  rw [lsrRes, lsrResult, BitVec.toNat_ushiftRight, BitVec.toNat_ofNat, Nat.shiftRight_eq_div_pow]
  omega

/-- A flag put where the byte has no bit is added (R198, R199). -/
theorem or_flagBit {x : Byte} {i : Nat} (hx : x.getLsbD i = false) (k : Bool) :
    x ||| flagBit k i = BitVec.ofNat 8 (x.toNat + 2 ^ i * k.toNat) := by
  cases k with
  | false => simp [flagBit]
  | true =>
    have hbit : flagBit true i = BitVec.twoPow 8 i := rfl
    have hapart : x &&& BitVec.twoPow 8 i = 0#8 := by simp [BitVec.and_twoPow, hx]
    rw [hbit, ← BitVec.add_eq_or_of_and_eq_zero _ _ hapart]
    apply BitVec.eq_of_toNat_eq
    simp [BitVec.toNat_twoPow]

theorem rolResult_eq (k : Bool) (m : Byte) : rolResult k m = BitVec.ofNat 8 (2 * m.toNat + k.toNat) := by
  have h0 : (m <<< 1).getLsbD 0 = false := by simp
  have hshift : m <<< 1 = BitVec.ofNat 8 (2 * m.toNat) := aslRes_eq k m
  rw [rolResult, or_flagBit h0, hshift]
  apply BitVec.eq_of_toNat_eq
  simp

theorem rorResult_eq (k : Bool) (m : Byte) : rorResult k m = BitVec.ofNat 8 (m.toNat / 2 + 128 * k.toNat) := by
  have h7 : (m >>> 1).getLsbD 7 = false := by simp
  rw [rorResult, or_flagBit h7, BitVec.toNat_ushiftRight, Nat.shiftRight_eq_div_pow]
  rfl

theorem mapCpu_stepFlags (m r : Byte) (t : State) :
    t.mapCpu (stepFlags m r) = { t with cpu := { t.cpu with z := isZero r, n := isNeg r } } :=
  congrArg (fun c => { t with cpu := c }) (t.cpu.setNZ_eq r)

theorem mapCpu_shiftFlags (k : Bool) (r : Byte) (t : State) : t.mapCpu (Cpu.shiftFlags k r) = shifted k r t := by
  rw [shifted, isZero_eq_beq, isNeg_eq_msb]
  rfl

theorem mapCpu_leftFlags (m r : Byte) (t : State) :
    t.mapCpu (leftFlags m r) = shifted (decide (128 ≤ m.toNat)) r t := by
  rw [← mapCpu_shiftFlags, ← show m.msb = decide (128 ≤ m.toNat) from BitVec.msb_eq_decide m]
  rfl

theorem mapCpu_rightFlags (m r : Byte) (t : State) :
    t.mapCpu (rightFlags m r) = shifted (decide (m.toNat % 2 = 1)) r t := by
  have hbit : m.getLsbD 0 = decide (m.toNat % 2 = 1) := by simpa using Spec.getLsbD_eq_decide m 0
  rw [← mapCpu_shiftFlags, ← hbit]
  rfl

end Sys2Proof.Machine

namespace Sys2Proof.Spec

open Sys2Proof.Machine

/-! ## A family of read-modify-write forms, once -/

/-- The model's shape for a form whose new byte is `res` and whose flags are `fl`. -/
def ModifyForm.run (f : ModifyForm) (res : Bool → Byte → Byte) (fl : Byte → Byte → Cpu → Cpu) (s : State) :
    State :=
  match f.place with
  | .acc => modifyAcc f.base res fl s
  | .mem m => modifyMem f.base m res fl s

/-- The model's shape stores the new byte at the form's place, then sets the flags. -/
theorem ModifyForm.run_eq (f : ModifyForm) (res : Bool → Byte → Byte) (fl : Byte → Byte → Cpu → Cpu)
    (s : State) :
    f.run res fl s =
      (f.place.store f.base (res s.cpu.c (f.place.old s)) s).mapCpu
        (fl (f.place.old s) (res s.cpu.c (f.place.old s))) := by
  obtain ⟨i, base, _ | m⟩ := f
  · rfl
  · exact modifyMem_eq base m res fl s

theorem ModifyForm.run_mem {f : ModifyForm} {m : AddrMode} (hm : f.place = .mem m) (res : Bool → Byte → Byte)
    (fl : Byte → Byte → Cpu → Cpu) (s : State) : f.run res fl s = modifyMem f.base m res fl s := by
  rw [ModifyForm.run, hm]

/-- `exec` runs every form of `fs` as the model's shape at `res` and `fl`. -/
def RunAs (res : Bool → Byte → Byte) (fl : Byte → Byte → Cpu → Cpu) (fs : List ModifyForm) : Prop :=
  ∀ f ∈ fs, ∀ s, exec f.instr s = .next (f.run res fl s)

section

variable {res : Bool → Byte → Byte} {fl : Byte → Byte → Cpu → Cpu} {fs : List ModifyForm}

/-- The arms are compared form for form. -/
theorem RunAs.of_arms (harms : fs.map (fun f => exec f.instr) = fs.map (fun f s => .next (f.run res fl s))) :
    RunAs res fl fs :=
  fun f hf => congrFun (List.map_inj_left.mp harms f hf)

/-- A family run as the model's shape leaves what its forms say, in the spec's words: the new byte is the
spec's `r` of the old C and byte, and setting the flags is the spec's `g`. -/
theorem RunAs.exec_eq_store (h : RunAs res fl fs) {r : Bool → Byte → Byte} {g : Byte → Byte → State → State}
    (hres : ∀ k m, res k m = r k m) (hfl : ∀ m v t, t.mapCpu (fl m v) = g m v t) (s : State) :
    ∀ f ∈ fs, exec f.instr s =
      .next (g (f.place.old s) (r s.cpu.c (f.place.old s))
        (f.place.store f.base (r s.cpu.c (f.place.old s)) s)) := by
  intro f hf
  rw [h f hf s, f.run_eq, hres, hfl]

end

theorem runAs_incForms (b : Byte) (w : Addr) : RunAs incRes stepFlags (incForms b w) := .of_arms rfl
theorem runAs_decForms (b : Byte) (w : Addr) : RunAs decRes stepFlags (decForms b w) := .of_arms rfl
theorem runAs_aslForms (b : Byte) (w : Addr) : RunAs aslRes leftFlags (aslForms b w) := .of_arms rfl
theorem runAs_lsrForms (b : Byte) (w : Addr) : RunAs lsrRes rightFlags (lsrForms b w) := .of_arms rfl
theorem runAs_rolForms (b : Byte) (w : Addr) : RunAs rolResult leftFlags (rolForms b w) := .of_arms rfl
theorem runAs_rorForms (b : Byte) (w : Addr) : RunAs rorResult rightFlags (rorForms b w) := .of_arms rfl

/-- Settles O25: the two families at their new byte, and INX, INY, DEX, DEY as a change of the CPU alone. -/
theorem incrementsAndDecrementsStepByOne : Obligations.IncrementsAndDecrementsStepByOne := by
  unfold Obligations.IncrementsAndDecrementsStepByOne
  intro b w s up down flagged
  have hup (m : Byte) : m + 1 = up m := incRes_eq false m
  have hdown (m : Byte) : m - 1 = down m := decRes_eq false m
  have hflagged (r : Byte) (t : State) : t.mapCpu (stepFlags r r) = flagged r t := mapCpu_stepFlags r r t
  refine ⟨?_, ?_, ?_, ?_, ?_, ?_⟩
  · exact (runAs_incForms b w).exec_eq_store (r := fun _ => up) incRes_eq mapCpu_stepFlags s
  · exact (runAs_decForms b w).exec_eq_store (r := fun _ => down) decRes_eq mapCpu_stepFlags s
  · rw [← hup, ← hflagged]
    rfl
  · rw [← hup, ← hflagged]
    rfl
  · rw [← hdown, ← hflagged]
    rfl
  · rw [← hdown, ← hflagged]
    rfl

/-- Settles O26: each family at its new byte and carry out as numbers. -/
theorem shiftsMoveOneBit : Obligations.ShiftsMoveOneBit := by
  unfold Obligations.ShiftsMoveOneBit
  intro b w s
  refine ⟨?_, ?_, ?_, ?_⟩
  · exact (runAs_aslForms b w).exec_eq_store aslRes_eq mapCpu_leftFlags s
  · exact (runAs_lsrForms b w).exec_eq_store lsrRes_eq mapCpu_rightFlags s
  · exact (runAs_rolForms b w).exec_eq_store rolResult_eq mapCpu_leftFlags s
  · exact (runAs_rorForms b w).exec_eq_store rorResult_eq mapCpu_rightFlags s

/-! ## The frame of a read-modify-write of memory (R200) -/

/-- Each of the 24 memory forms belongs to one of the six families. -/
theorem memoryModifyForms_run (b : Byte) (w : Addr) (s : State) :
    ∀ f ∈ memoryModifyForms b w, ∃ mn res fl, ModifyOp mn res fl ∧ exec f.instr s = .next (f.run res fl s) := by
  intro f hf
  simp only [memoryModifyForms, List.mem_append] at hf
  obtain ((((hf | hf) | hf) | hf) | hf) | hf := hf
  · exact ⟨_, _, _, .inc, runAs_incForms b w f hf s⟩
  · exact ⟨_, _, _, .dec, runAs_decForms b w f hf s⟩
  · exact ⟨_, _, _, .shift .asl, runAs_aslForms b w f (.tail _ hf) s⟩
  · exact ⟨_, _, _, .shift .lsr, runAs_lsrForms b w f (.tail _ hf) s⟩
  · exact ⟨_, _, _, .shift .rol, runAs_rolForms b w f (.tail _ hf) s⟩
  · exact ⟨_, _, _, .shift .ror, runAs_rorForms b w f (.tail _ hf) s⟩

/-- Settles O27: each form is the model's shape at an operation whose flags are C, Z and N; its read and its
write leave the rest of the CPU but the tally, and the write alone stores. -/
theorem readModifyWriteFrame : Obligations.ReadModifyWriteFrame := by
  unfold Obligations.ReadModifyWriteFrame
  intro b w s f hf m hm
  obtain ⟨mn, res, fl, hop, hexec⟩ := memoryModifyForms_run b w s f hf
  rw [ModifyForm.run_mem hm] at hexec
  obtain ⟨carry, z, n, prev, pending, hcpu⟩ := modifyMem_cpu_frame hop f.base m s
  refine ⟨_, hexec, ?_⟩
  rw [hcpu]
  exact ⟨rfl, rfl, rfl, rfl, rfl, rfl, rfl, rfl, rfl, rfl, modifyMem_ports _ _ _ _ s,
    fun c hc => cell_modifyMem hc _ _ _⟩

end Sys2Proof.Spec

namespace Sys2Proof.Spec

open Sys2Proof.Machine

/-! ## Words and their bytes in the spec's numbers -/

theorem word_eq (lo hi : Byte) : word lo hi = abs16 lo hi := by
  rw [word, ← abs16_toNat, BitVec.ofNat_toNat, BitVec.setWidth_eq]

theorem lowByte_eq (w : Addr) : lowByte w = loByte w := BitVec.ofNat_toNat 8 w

theorem highByte_eq (w : Addr) : highByte w = hiByte w := by
  rw [highByte, ← hiByte_toNat, BitVec.ofNat_toNat, BitVec.setWidth_eq]

/-! ## Jumps, calls and returns (R210, R212, R213) -/

/-- A CALL, whole: the two bytes of its last byte's address in the stack page, S and PC. -/
theorem callSubroutine_eq (w : Addr) (s : State) :
    callSubroutine w s =
      { s with
        ram := (s.ram.write (pushCell s.cpu.s 0) (highByte (s.cpu.pc - 1))).write (pushCell s.cpu.s 1)
          (lowByte (s.cpu.pc - 1))
        cpu := { s.cpu with s := s.cpu.s - 2, pc := w } } := by
  have hS : s.cpu.s - 1 - 1 = s.cpu.s - 2 := by rw [BitVec.sub_sub]; rfl
  rw [callSubroutine, push_eq, push_eq, pushCell_eq _ (Nat.zero_le _), pushCell_eq _ (by decide), BitVec.sub_zero,
    highByte_eq, lowByte_eq, ← hS]
  rfl

/-- A RETURN, whole: S past the two pulled bytes, PC one past the address they give. -/
theorem returnFromSubroutine_eq (s : State) :
    returnFromSubroutine s =
      { s with
        cpu :=
          { s.cpu with
            s := s.cpu.s + 2
            pc := word (s.ram.read (pullCell s.cpu.s 1)) (s.ram.read (pullCell s.cpu.s 2)) + 1 } } := by
  have hS : s.cpu.s + 1 + 1 = s.cpu.s + 2 := by rw [BitVec.add_assoc]; rfl
  rw [returnFromSubroutine, pull_eq, pull_eq, pullCell_eq, pullCell_eq, word_eq]
  simp only [State.mapCpu_cpu, Cpu.setS_s, State.mapCpu_ram, hS]
  rfl

theorem exec_jsr (w : Addr) (s : State) : exec (.jsr w) s = .next (callSubroutine w (s.start 6)) := rfl

theorem exec_rts (s : State) : exec .rts s = .next (returnFromSubroutine (s.start 6)) := rfl

/-- Settles O28: the jump, the call and the return, whole, begun at their base counts. -/
theorem jumpCallAndReturn : Obligations.JumpCallAndReturn := by
  unfold Obligations.JumpCallAndReturn
  intro w s
  rw [exec_jsr, exec_rts, callSubroutine_eq, returnFromSubroutine_eq]
  exact ⟨rfl, rfl, rfl⟩

/-! ## A call undone by its return -/

/-- The first pull after two pushes reads the cell of the second, wherever S stands. -/
theorem pullCell_sub_two_one (s : Byte) : pullCell (s - 2) 1 = pushCell s 1 := by
  rw [pullCell_eq, pushCell_eq _ (by decide)]
  congr 2
  bv_omega

/-- The second pull after two pushes reads the cell of the first. -/
theorem pullCell_sub_two_two (s : Byte) : pullCell (s - 2) 2 = pushCell s 0 := by
  rw [pullCell_eq, pushCell_eq _ (by decide)]
  congr 2
  bv_omega

theorem pushCell_zero_ne_one (s : Byte) : pushCell s 0 ≠ pushCell s 1 := by
  have hs := s.isLt
  unfold pushCell
  omega

/-- Settles O30: the return pulls the call's two bytes from the cells the call pushed them to, and one past the
address they give is the PC before the call. -/
theorem rtsUndoesJsr : Obligations.RtsUndoesJsr := by
  unfold Obligations.RtsUndoesJsr
  intro w s
  have hS : s.cpu.s - 2 + 2 = s.cpu.s := BitVec.sub_add_cancel _ _
  have hpc : word (lowByte (s.cpu.pc - 1)) (highByte (s.cpu.pc - 1)) + 1 = s.cpu.pc := by
    rw [word_eq, lowByte_eq, highByte_eq, abs16_bytes, BitVec.sub_add_cancel]
  refine ⟨_, _, exec_jsr w s, exec_rts _, ?_⟩
  rw [returnFromSubroutine_eq, callSubroutine_eq]
  refine ⟨rfl, ?_, rfl, rfl, rfl, rfl, fun j h0 h1 => ?_⟩
  · simp only [start_cpu, start_ram, Cpu.setCycles_s, Cpu.setCycles_pc, pullCell_sub_two_one, pullCell_sub_two_two,
      Memory.read_write_same, Memory.read_write_other _ _ (pushCell_zero_ne_one s.cpu.s).symm, hS, hpc]
    rfl
  · exact (Memory.read_write_other _ _ h1.symm).trans (Memory.read_write_other _ _ h0.symm)

/-! ## The indirect jump (R211, R114) -/

/-- The address of the pointer's high byte: the next one of the same page, its first after its last. -/
theorem abs16_succ_in_page (w : Addr) :
    abs16 (loByte w + 1) (hiByte w) = BitVec.ofNat 16 (w.toNat / 256 * 256 + (w.toNat + 1) % 256) := by
  have hw := w.isLt
  have hlo : (loByte w + 1).toNat = (w.toNat % 256 + 1) % 256 :=
    (BitVec.toNat_add _ _).trans (by rw [loByte, BitVec.toNat_setWidth]; rfl)
  apply BitVec.eq_of_toNat_eq
  rw [abs16_toNat, hiByte_toNat, hlo, BitVec.toNat_ofNat]
  omega

/-- Settles O29: the two pointer reads in order, the second in the page of the first. -/
theorem jmpIndirectStaysInThePage : Obligations.JmpIndirectStaysInThePage := by
  unfold Obligations.JmpIndirectStaysInThePage
  intro w s second s1
  have hsecond : abs16 (loByte w + 1) (hiByte w) = second := abs16_succ_in_page w
  have hjmp : exec (.jmpInd w) s = .next (jumpIndirect w (s.start 5)) := rfl
  rw [hjmp, jumpIndirect, indirectTarget, hsecond]
  simp only [memRead_fst, memRead_snd, busByte_start, afterRead_start, word_eq]
  rfl

/-! ## Branches (R113, R214) -/

theorem branchTarget_eq (d : Int) (c : Cpu) : branchTarget d c = BitVec.ofInt 16 (c.pc.toNat + d) := by
  rw [BitVec.ofInt_add, BitVec.ofInt_natCast, BitVec.ofNat_toNat, BitVec.setWidth_eq]
  rfl

/-- Another page, in numbers. -/
theorem hiByte_bne_iff (v w : Addr) : (hiByte v != hiByte w) = true ↔ ¬ v.toNat / 256 = w.toNat / 256 := by
  rw [bne_iff_ne, ne_eq, ← BitVec.toNat_inj, hiByte_toNat, hiByte_toNat]

theorem exec_branches (d : Int) (s : State) : ∀ f ∈ branches, exec (f.1 d) s = .next (branch f.2 d s) := by
  simp only [branches, List.forall_mem_cons]
  exact ⟨rfl, rfl, rfl, rfl, rfl, rfl, rfl, rfl, List.forall_mem_nil _⟩

/-- Settles O31: each of the eight is the model's branch shape at its condition, which is taken or not. -/
theorem branchesMovePcOnTheirCondition : Obligations.BranchesMovePcOnTheirCondition := by
  unfold Obligations.BranchesMovePcOnTheirCondition
  intro d s f hf target
  rw [exec_branches d s f hf, branch_eq, branchTarget_eq]
  simp only [hiByte_bne_iff, ite_not]
  cases f.2 s.cpu with
  | false => rfl
  | true => rfl

end Sys2Proof.Spec

namespace Sys2Proof.Machine

/-! ## Flag instructions (R230 to R237) and the boundary after them (R410, R416) -/

/-- AN IMPLIED INSTRUCTION, whole: its change of the CPU, begun at its base count. -/
theorem exec_onCpu {i : Instr} {s : State} (k : Nat) (f : Cpu → Cpu) (h : exec i s = .next (onCpu k f s)) :
    exec i s = .next { s with cpu := f { s.cpu with cycles := k } } := h

/-- Settles O32: each instruction is the model's change of one flag, or of none, at 2 cycles. -/
theorem flagInstructionsWriteOneFlag : Obligations.FlagInstructionsWriteOneFlag := by
  unfold Obligations.FlagInstructionsWriteOneFlag
  intro s
  exact ⟨exec_onCpu 2 (Cpu.setC false) rfl, exec_onCpu 2 (Cpu.setC true) rfl,
    exec_onCpu 2 (Cpu.setV false) rfl, exec_onCpu 2 (Cpu.setD false) rfl,
    exec_onCpu 2 (Cpu.setD true) rfl, exec_onCpu 2 id rfl⟩

theorem exec_cli (s : State) : exec .cli s = .next { s with cpu := { s.cpu with i := false, cycles := 2 } } :=
  exec_onCpu 2 (Cpu.setI false) rfl

theorem exec_sei (s : State) : exec .sei s = .next { s with cpu := { s.cpu with i := true, cycles := 2 } } :=
  exec_onCpu 2 (Cpu.setI true) rfl

/-- With the line high, I clear and nothing of a higher priority, IRQ is due: the case that
`due_of_fetchDue` leaves out. -/
theorem due_of_irqUnmasked {s : State} (hline : s.ports.resetLine = false) (hreset : s.cpu.resetPending = false)
    (hhalt : s.cpu.halted = false) (hnmi : s.cpu.nmiPending = false) (hirq : s.ports.irqLine = true)
    (hi : s.cpu.i = false) : due s = .irq := by
  simp [due, hline, hreset, hhalt, hnmi, hirq, hi]

/-- Settles O33: both leave the lines and latches as they were, so I alone decides what is due next. -/
theorem cliAndSeiActAtTheNextBoundary : Obligations.CliAndSeiActAtTheNextBoundary := by
  unfold Obligations.CliAndSeiActAtTheNextBoundary
  intro s
  refine ⟨exec_cli s, exec_sei s, fun hline hreset hhalt hnmi hirq => ⟨⟨_, exec_cli s, ?_⟩, _, exec_sei s, ?_⟩⟩
  · exact due_of_irqUnmasked hline hreset hhalt hnmi hirq rfl
  · exact due_of_fetchDue ⟨hline, hreset, hhalt, hnmi, .inr rfl⟩

end Sys2Proof.Machine

namespace Sys2Proof.Machine

open Sys2Proof.Spec (isPort nmiWire observed)

/-! ## PPUCTRL during vblank (R252, R258, R415) -/

/-- Of the PPU a write of a port leaves what the port's own write leaves (R62, R64). -/
theorem memWrite_port_ppu {a : Addr} {r : Nat} (h : isPort a r) (v : Byte) (s : State) :
    (memWrite a v s).ppu = s.ppu.afterPortWrite s.board r v := by
  rw [memWrite_port h, observeNmi_ppu, State.setPpu_ppu]

/-- A write of PPUCTRL keeps the byte and leaves the vblank flag (R252). -/
theorem memWrite_ctrlPort {a : Addr} (h : isPort a 0) (v : Byte) (s : State) :
    (memWrite a v s).ppu.ctrl = v ∧ (memWrite a v s).ppu.vblank = s.ppu.vblank := by
  rw [memWrite_port_ppu h]
  exact ⟨rfl, rfl⟩

/-- After a write of a port the CPU has observed the wire that the write left (R415; D26). -/
theorem memWrite_port_cpu {a : Addr} {r : Nat} (h : isPort a r) (v : Byte) (s : State) :
    (memWrite a v s).cpu = observed (memWrite a v s).ppu s.cpu := by
  rw [memWrite_port h, observeNmi_observed]
  rfl

theorem exec_staAbs (a : Addr) (s : State) : exec (.staAbs a) s = .next (memWrite a s.cpu.a (s.start 4)) := rfl

/-- Settles O14: with vblank set the wire is bit 7 of the byte stored, and the CPU observes it after the write. -/
theorem enablingNmiDuringVblankRaisesNmi : Obligations.EnablingNmiDuringVblankRaisesNmi := by
  unfold Obligations.EnablingNmiDuringVblankRaisesNmi
  intro s a ha hvblank
  obtain ⟨hctrl, hvb⟩ := memWrite_ctrlPort ha s.cpu.a (s.start 4)
  have hwire : nmiWire (memWrite a s.cpu.a (s.start 4)).ppu = s.cpu.a.getLsbD 7 := by
    rw [nmiWire, hctrl, hvb, start_ppu, hvblank, Bool.and_true]
  refine ⟨_, exec_staAbs a s, hctrl, ?_, ?_⟩ <;> rw [memWrite_port_cpu ha]
  · exact hwire
  · simp only [observed, hwire, start_cpu]
    rfl

/-! ## PPUSTATUS (R254) -/

/-- The three flags over five clear bits (R254). -/
theorem statusFlags_toNat : ∀ vb hit ovf : Bool,
    ((if vb then 0x80 else 0 : Byte) ||| (if hit then 0x40 else 0) ||| (if ovf then 0x20 else 0)).toNat =
      2 ^ 5 * (4 * vb.toNat + 2 * hit.toNat + ovf.toNat) := by
  decide

theorem lowFive_toNat (l : Byte) : (l &&& 0x1F).toNat = l.toNat % 2 ^ 5 :=
  Nat.and_two_pow_sub_one_eq_mod l.toNat 5

/-- The byte of PPUSTATUS as a number (R254; D15). -/
theorem Ppu.statusByte_toNat (p : Ppu) :
    p.statusByte.toNat =
      128 * p.vblank.toNat + 64 * p.spr0Hit.toNat + 32 * p.sprOverflow.toNat + p.ioLatch.toNat % 32 := by
  have hlow : p.ioLatch.toNat % 2 ^ 5 < 2 ^ 5 := Nat.mod_lt _ (by decide)
  rw [Ppu.statusByte, BitVec.toNat_or, statusFlags_toNat, lowFive_toNat, ← Nat.two_pow_add_eq_or_of_lt hlow]
  omega

/-- Bit 7 of PPUSTATUS is the vblank flag: with the flag clear the byte is below 128. -/
theorem Ppu.statusByte_bit7_of_not_vblank {p : Ppu} (h : p.vblank = false) : p.statusByte.getLsbD 7 = false := by
  refine Nat.testBit_lt_two_pow ?_
  have hhit := p.spr0Hit.toNat_le
  have hover := p.sprOverflow.toNat_le
  rw [p.statusByte_toNat, h, Bool.toNat_false]
  omega

/-- Settles O41: the read's byte as a number, its effect by definition; with vblank clear the wire is low, so no
NMI is raised, and the second read's bit 7 is clear. -/
theorem statusReadClearsVblankAndToggle : Obligations.StatusReadClearsVblankAndToggle := by
  unfold Obligations.StatusReadClearsVblankAndToggle
  intro s a ha
  have hppu : (afterRead a s).ppu = { s.ppu with vblank := false, w := false, ioLatch := busByte a s } := by
    rw [afterRead_port ha, busByte_port ha]
    rfl
  refine ⟨?_, hppu, ?_, ?_⟩
  · rw [busByte_port ha]
    exact s.ppu.statusByte_toNat
  · rw [afterRead_port ha, observeNmi_observed]
    simp [observed, nmiWire, Ppu.afterPortRead]
  · rw [busByte_port ha, hppu]
    exact Ppu.statusByte_bit7_of_not_vblank rfl

/-! ## PPUSCROLL and PPUADDR (R263, R264) -/

section
variable (v : Byte) {p : Ppu}

/-- PPUSCROLL's first write: coarse X into `t`, and fine X (R263). -/
theorem Ppu.writeScroll_first (hw : p.w = false) :
    (∀ j, j < 15 → (p.writeScroll v).t.getLsbD j = if j < 5 then v.getLsbD (j + 3) else p.t.getLsbD j) ∧
    (p.writeScroll v).fineX.toNat = v.toNat % 8 ∧ (p.writeScroll v).w = true ∧ (p.writeScroll v).v = p.v := by
  rw [Ppu.writeScroll, hw]
  refine ⟨fun j hj => ?_, BitVec.toNat_setWidth 3 v, rfl, rfl⟩
  interval_cases j <;> simp

/-- PPUSCROLL's second write: fine Y and coarse Y into `t` (R263). -/
theorem Ppu.writeScroll_second (hw : p.w = true) :
    (∀ j, j < 15 → (p.writeScroll v).t.getLsbD j =
      if 12 ≤ j then v.getLsbD (j - 12) else if 5 ≤ j ∧ j < 10 then v.getLsbD (j - 2) else p.t.getLsbD j) ∧
    (p.writeScroll v).fineX = p.fineX ∧ (p.writeScroll v).w = false ∧ (p.writeScroll v).v = p.v := by
  rw [Ppu.writeScroll, hw]
  refine ⟨fun j hj => ?_, rfl, rfl, rfl⟩
  interval_cases j <;> simp

/-- PPUADDR's first write: six bits into the high half of `t`, bit 14 cleared (R264). -/
theorem Ppu.writeAddr_first (hw : p.w = false) :
    (∀ j, j < 15 → (p.writeAddr v).t.getLsbD j =
      if j = 14 then false else if 8 ≤ j then v.getLsbD (j - 8) else p.t.getLsbD j) ∧
    (p.writeAddr v).fineX = p.fineX ∧ (p.writeAddr v).w = true ∧ (p.writeAddr v).v = p.v := by
  rw [Ppu.writeAddr, hw]
  refine ⟨fun j hj => ?_, rfl, rfl, rfl⟩
  interval_cases j <;> simp

/-- PPUADDR's second write: the low half of `t`, then all of `t` into `v` (R264). -/
theorem Ppu.writeAddr_second (hw : p.w = true) :
    (∀ j, j < 15 → (p.writeAddr v).t.getLsbD j = if j < 8 then v.getLsbD j else p.t.getLsbD j) ∧
    (p.writeAddr v).fineX = p.fineX ∧ (p.writeAddr v).w = false ∧ (p.writeAddr v).v = (p.writeAddr v).t := by
  rw [Ppu.writeAddr, hw]
  refine ⟨fun j hj => ?_, rfl, rfl, rfl⟩
  interval_cases j <;> simp

end

/-- Settles O42: each port in each state of the one toggle, by the lemma about that write; the byte put in the
latch before it is none of the fields named. -/
theorem scrollAndAddressWritesSetT : Obligations.ScrollAndAddressWritesSetT := by
  unfold Obligations.ScrollAndAddressWritesSetT
  dsimp only
  intro s a val
  refine ⟨fun ha => ?_, fun ha => ?_, fun ha => ?_, fun ha => ?_⟩
  · rw [memWrite_port_ppu ha]
    exact Ppu.writeScroll_first val (p := { s.ppu with ioLatch := val })
  · rw [memWrite_port_ppu ha]
    exact Ppu.writeScroll_second val (p := { s.ppu with ioLatch := val })
  · rw [memWrite_port_ppu ha]
    exact Ppu.writeAddr_first val (p := { s.ppu with ioLatch := val })
  · rw [memWrite_port_ppu ha]
    exact Ppu.writeAddr_second val (p := { s.ppu with ioLatch := val })

end Sys2Proof.Machine

namespace Sys2Proof.Machine

open Sys2Proof.Spec (isPort)

/-! ## PPUDATA (R265 to R267) -/

/-- The address on the PPU's bus as a number: `v` modulo `$4000` (R88). -/
theorem Ppu.busAddr_eq (p : Ppu) : p.busAddr = BitVec.ofNat 14 (p.v.toNat % 0x4000) := by
  apply BitVec.eq_of_toNat_eq
  simp [Ppu.busAddr]

theorem Ppu.busAddr_toNat (p : Ppu) : p.busAddr.toNat = p.v.toNat % 0x4000 := BitVec.toNat_setWidth 14 p.v

/-- The nametable address under the palette (R266). -/
theorem paletteAddr_sub {n : Nat} (hlo : 0x3F00 ≤ n) (hhi : n < 0x4000) :
    BitVec.ofNat 14 n - 0x1000 = BitVec.ofNat 14 (n - 0x1000) := by
  bv_omega

/-- `IncV()` in numbers (R267; D18). -/
theorem Ppu.incV_v_toNat (p : Ppu) :
    p.incV.v.toNat = (p.v.toNat + if p.ctrl.toNat / 4 % 2 = 1 then 32 else 1) % 0x8000 := by
  have hbit : p.ctrl.getLsbD 2 = decide (p.ctrl.toNat / 4 % 2 = 1) := Nat.testBit_eq_decide_div_mod_eq
  rw [Ppu.incV, hbit, BitVec.toNat_add]
  by_cases h : p.ctrl.toNat / 4 % 2 = 1 <;> simp [h]

/-- `v` after a read of PPUDATA (R267). -/
theorem Ppu.afterPortRead_data_v (b : Board) (p : Ppu) : (p.afterPortRead b 7).v = p.incV.v := rfl

/-- `v` after a write of PPUDATA: the store touches neither it nor PPUCTRL (R267). -/
theorem Ppu.afterPortWrite_data_v (b : Board) (v : Byte) (p : Ppu) : (p.afterPortWrite b 7 v).v = p.incV.v := by
  show (ppuWriteRam b { p with ioLatch := v } p.busAddr v).incV.v = p.incV.v
  rw [ppuWriteRam_frame]
  rfl

/-- A byte stored in nametable RAM is read back there (R84, R85). -/
theorem ppuRead_ppuWriteRam_nametable (b : Board) (p : Ppu) (v : Byte) {a : PpuAddr} (hlo : 0x2000 ≤ a.toNat)
    (hhi : a.toNat < 0x3F00) : ppuRead b (ppuWriteRam b p a v) a = v := by
  simp [ppuRead, ppuWriteRam, hhi, show ¬ a.toNat < 0x2000 by omega]

/-- The PPU's bus after a write of PPUDATA: neither the latch nor the step of `v` changes what it reads. -/
theorem ppuRead_afterPortWrite_data (b : Board) (v : Byte) (p : Ppu) (a : PpuAddr) :
    ppuRead b (p.afterPortWrite b 7 v) a = ppuRead b (ppuWriteRam b { p with ioLatch := v } p.busAddr v) a := rfl

/-- What PPUDATA stores above the pattern tables is read back there, six bits of it in the palette
(R84, R85, R265; D19). -/
theorem ppuRead_afterPortWrite_data_busAddr (b : Board) (v : Byte) {p : Ppu} (h : 0x2000 ≤ p.busAddr.toNat) :
    ppuRead b (p.afterPortWrite b 7 v) p.busAddr =
      if p.busAddr.toNat < 0x3F00 then v else BitVec.ofNat 8 (v.toNat % 64) := by
  rw [ppuRead_afterPortWrite_data]
  split
  case isTrue hnt => exact ppuRead_ppuWriteRam_nametable b _ v h hnt
  case isFalse hpal =>
    rw [ppuRead_ppuWriteRam_palette b _ v (by omega) (by omega) rfl, byte_setWidth_six]

/-- Settles O43: `v` by `IncV` in both directions, then each range of the bus address, with the address as the
number the statement names. -/
theorem dataPortReadsWritesAndAdvances : Obligations.DataPortReadsWritesAndAdvances := by
  unfold Obligations.DataPortReadsWritesAndAdvances
  intro s a val ha at' next
  have hbus : s.ppu.busAddr = BitVec.ofNat 14 at' := s.ppu.busAddr_eq
  have hnum : s.ppu.busAddr.toNat = at' := s.ppu.busAddr_toNat
  have hlt : at' < 0x4000 := Nat.mod_lt _ (by decide)
  rw [memWrite_port ha, afterRead_port ha, busByte_port ha, ← hbus]
  refine ⟨?_, s.ppu.incV_v_toNat, fun h => ?_, fun h => ⟨?_, ?_⟩, fun h => ⟨?_, ?_⟩, fun h => ⟨?_, ?_⟩, rfl⟩
  · exact (congrArg BitVec.toNat (Ppu.afterPortWrite_data_v s.board val s.ppu)).trans s.ppu.incV_v_toNat
  · exact if_pos (hnum ▸ h)
  · exact if_neg (by omega)
  · rw [← hnum]
    exact ppuRead_afterPortWrite_data_busAddr s.board val (hnum ▸ h)
  · exact if_pos (hnum ▸ h)
  · exact if_pos (hnum ▸ h)
  · exact if_neg (by omega)
  · rw [← paletteAddr_sub h hlt, ← hbus]
    exact if_neg (by omega)

end Sys2Proof.Machine

namespace Sys2Proof.Spec

open Sys2Proof.Machine

/-! ## OAM DMA, byte by byte (R390) -/

/-- A read never moves OAMADDR (R261). -/
@[simp] theorem afterRead_oamAddr (a : Addr) (s : State) : (afterRead a s).ppu.oamAddr = s.ppu.oamAddr := by
  have hport (b : Board) (r : Nat) (p : Ppu) : (p.afterPortRead b r).oamAddr = p.oamAddr := by
    unfold Ppu.afterPortRead
    split <;> rfl
  rcases afterRead_cases a s with h | ⟨_, _, h⟩ | ⟨_, h⟩ | ⟨_, h⟩ <;> simp [h, hport]

theorem dmaCopy_oamAddr (val : Byte) (n i : Nat) (s : State) :
    (dmaCopy val n i s).ppu.oamAddr = s.ppu.oamAddr :=
  dmaCopy_induction (P := fun t => t.ppu.oamAddr = s.ppu.oamAddr) val (by simp) (by simp) n i s rfl

/-- One byte of the copy stores to one cell, `i` past OAMADDR modulo 256 (R390). -/
theorem dmaByte_oam (val : Byte) (i : Nat) (s : State) :
    (dmaByte val i s).ppu.oam =
      s.ppu.oam.write ((s.ppu.oamAddr.toNat + i) % 256) (busByte (word (BitVec.ofNat 8 i) val) s) := by
  have hcell : (s.ppu.oamAddr + BitVec.ofNat 8 i).toNat = (s.ppu.oamAddr.toNat + i) % 256 := by
    simp [BitVec.toNat_add]
  obtain ⟨-, -, hoam, -, -⟩ := afterRead_ppu_memories (abs16 (BitVec.ofNat 8 i) val) s
  simp [dmaByte, hoam, hcell, word_eq]

/-- The copy of `m + n` bytes is that of the first `m`, then that of the other `n`. -/
theorem dmaCopy_add (val : Byte) (m n i : Nat) (s : State) :
    dmaCopy val (m + n) i s = dmaCopy val n (i + m) (dmaCopy val m i s) := by
  induction m generalizing i s with
  | zero => rw [Nat.zero_add]; rfl
  | succ m ih =>
    rw [Nat.succ_add, dmaCopy, ih, dmaCopy, Nat.add_right_comm]
    rfl

/-- The copy leaves the cell of an index outside it, as long as all of them lie in one turn of OAM. -/
theorem dmaCopy_oam_other (val : Byte) {k : Nat} (n i : Nat) (hk : k < i) (hn : i + n ≤ 256) (s : State) :
    (dmaCopy val n i s).ppu.oam.read ((s.ppu.oamAddr.toNat + k) % 256) =
      s.ppu.oam.read ((s.ppu.oamAddr.toNat + k) % 256) := by
  induction n generalizing i s with
  | zero => rfl
  | succ n ih =>
    have haddr : (dmaByte val i s).ppu.oamAddr = s.ppu.oamAddr := dmaCopy_oamAddr val 1 i s
    have hcopy := ih (i + 1) (by omega) (by omega) (dmaByte val i s)
    rw [haddr] at hcopy
    rw [dmaCopy, hcopy, dmaByte_oam, Memory.read_write_other _ _ (by omega)]

/-- Byte `i` of the whole copy: what the bus gives after the `i` bytes before it, and no later byte reaches its
cell (R390). -/
theorem dmaCopy_oam_read (val : Byte) {i : Nat} (hi : i < 256) (s : State) :
    (dmaCopy val 256 0 s).ppu.oam.read ((s.ppu.oamAddr.toNat + i) % 256) =
      busByte (word (BitVec.ofNat 8 i) val) (dmaCopy val i 0 s) := by
  have hsplit : dmaCopy val 256 0 s = dmaCopy val (255 - i) (i + 1) (dmaCopy val (i + 1) 0 s) := by
    rw [show 256 = (i + 1) + (255 - i) by omega, dmaCopy_add, Nat.zero_add]
  have hlast : dmaCopy val (i + 1) 0 s = dmaByte val i (dmaCopy val i 0 s) := by
    rw [dmaCopy_add, Nat.zero_add]
    rfl
  have hother := dmaCopy_oam_other val (255 - i) (i + 1) (Nat.lt_succ_self i) (by omega) (dmaCopy val (i + 1) 0 s)
  rw [dmaCopy_oamAddr] at hother
  rw [hsplit, hother, hlast, dmaByte_oam, dmaCopy_oamAddr, Memory.read_write_same]

/-- Where the source page is RAM or cartridge, the copy does not change what the bus gives there (R390). -/
theorem busByte_dmaCopy (val lo : Byte) (hpage : val.toNat < 0x20 ∨ 0x41 ≤ val.toNat) (n i : Nat) (s : State) :
    busByte (word lo val) (dmaCopy val n i s) = busByte (word lo val) s := by
  have hlo := lo.isLt
  have hnum : (word lo val).toNat = lo.toNat + 256 * val.toNat := by rw [word_eq, abs16_toNat]
  rcases hpage with h | h
  · have hram : (word lo val).toNat < 0x2000 := by omega
    rw [busByte_ram hram, busByte_ram hram, dmaCopy_ram]
  · have hcart : 0x4020 ≤ (word lo val).toNat := by omega
    rw [busByte_cart hcart, busByte_cart hcart, dmaCopy_board]

/-- A write of `$4014` leaves the PPU of the whole copy: the stall is the CPU's (R390, R391). -/
theorem memWrite_dma_ppu (val : Byte) (s : State) :
    (memWrite 0x4014 val s).ppu = (dmaCopy val 256 0 s).ppu := rfl

/-- Settles O45: the OAM port by its own lemmas, and `$4014` by the copy, of which each byte stands where it was
stored. -/
theorem oamPortAndDma : Obligations.OamPortAndDma := by
  unfold Obligations.OamPortAndDma
  refine ⟨fun s a val ha => ?_, fun s val => ?_⟩
  · rw [memWrite_port_ppu ha]
    refine ⟨busByte_port ha s, afterRead_oamAddr a s, fun hdraw => ?_, fun hidle => ?_⟩
    · rw [Ppu.afterPortWrite_oamData_drawing s.board val hdraw]
      exact ⟨rfl, rfl⟩
    · rw [Ppu.afterPortWrite_oamData_idle s.board val hidle]
      exact ⟨rfl, rfl⟩
  · rw [memWrite_dma_ppu]
    refine ⟨dmaCopy_oamAddr val 256 0 s, memWrite_cycles 0x4014 val s, fun i hi => dmaCopy_oam_read val hi s,
      fun hpage i hi => ?_⟩
    rw [dmaCopy_oam_read val hi, busByte_dmaCopy val _ hpage]

end Sys2Proof.Spec

namespace Sys2Proof.Machine

/-! ## The raster position and the frame's end (R291, R292) -/

theorem Ppu.frameEnds_iff (p : Ppu) :
    p.frameEnds = true ↔ p.scanline = 261 ∧
      (p.dot = 340 ∨ p.dot = 339 ∧ p.oddFrame = true ∧ (p.mask.getLsbD 3 || p.mask.getLsbD 4) = true) := by
  simp [Ppu.frameEnds, Ppu.rendering, and_assoc]

/-- The tick that ends a frame (R291, R292; D21). -/
theorem Ppu.tick_frameEnds (b : Board) {p : Ppu} (h : p.frameEnds = true) :
    (p.tick b).scanline = 0 ∧ (p.tick b).dot = 0 ∧ (p.tick b).oddFrame = !p.oddFrame := by
  obtain ⟨-, -, hodd, -⟩ := Ppu.dotActions_position b p.scanline p.dot p
  rw [Ppu.tick, h, Ppu.advance, if_pos rfl]
  exact ⟨rfl, rfl, by rw [hodd]⟩

/-- Any other tick is one position further on the grid of 341 dots a line (R291; D20). -/
theorem Ppu.tick_advances (b : Board) {p : Ppu} (h : p.frameEnds = false) (hdot : p.dot ≤ 340) :
    (p.tick b).oddFrame = p.oddFrame ∧
    (p.tick b).scanline * 341 + (p.tick b).dot = p.scanline * 341 + p.dot + 1 ∧ (p.tick b).dot ≤ 340 := by
  obtain ⟨hline, hd, hodd, -⟩ := Ppu.dotActions_position b p.scanline p.dot p
  rw [Ppu.tick, h, Ppu.advance, if_neg Bool.false_ne_true]
  split
  · exact ⟨hodd, by dsimp only; omega, by dsimp only; omega⟩
  · exact ⟨hodd, by dsimp only; omega, by dsimp only; omega⟩

/-! ## The frame event (R331, R398, R399) -/

@[simp] theorem frameEvent_frameOut (f : FrameBuffer) (p : Ports) : (p.frameEvent f).frameOut = f := by
  unfold Ports.frameEvent
  split <;> rfl

@[simp] theorem frameEvent_frameCount (f : FrameBuffer) (p : Ports) :
    (p.frameEvent f).frameCount = p.frameCount + 1 := by
  unfold Ports.frameEvent
  split <;> rfl

/-- With no snapshot offered the buttons stay (log entry 4). -/
theorem frameEvent_no_offer (f : FrameBuffer) {p : Ports} (h : p.pendingInput = []) :
    p.frameEvent f = { p with frameCount := p.frameCount + 1, frameOut := f } := by
  simp [Ports.frameEvent, h]

/-- The next snapshot offered is taken (R399). -/
theorem frameEvent_offer (f : FrameBuffer) {p : Ports} {b0 b1 : Byte} {rest : List (Byte × Byte)}
    (h : p.pendingInput = (b0, b1) :: rest) :
    p.frameEvent f =
      { p with
        frameCount := p.frameCount + 1, frameOut := f
        buttons0 := b0, buttons1 := b1, pendingInput := rest } := by
  simp [Ports.frameEvent, h]

/-- Settles O53: the dot that ends a frame does the frame event, which is delivery and then sampling. -/
theorem frameEventDeliversThenSamples : Obligations.FrameEventDeliversThenSamples := by
  unfold Obligations.FrameEventDeliversThenSamples
  intro s
  refine ⟨fun h => ?_, fun h => ?_⟩
  · rw [dotStep_ports, if_pos (s.ppu.frameEnds_iff.2 h)]
    refine ⟨frameEvent_frameOut _ _, frameEvent_frameCount _ _, fun hnone => ?_, fun b0 b1 rest hoffer => ?_⟩
    · rw [frameEvent_no_offer _ hnone]
      exact ⟨rfl, rfl⟩
    · rw [frameEvent_offer _ hoffer]
      exact ⟨rfl, rfl, rfl⟩
  · rw [dotStep_ports, if_neg (mt s.ppu.frameEnds_iff.1 h)]

/-! ## A frame with rendering disabled (R326, R332; D25) -/

/-- With rendering disabled a tick reaches the status flags, the raster position and the framebuffer at most. -/
theorem Ppu.tick_disabled_changes (b : Board) {p : Ppu} (h : p.rendering = false) :
    p.tick b =
      { p with
        vblank := (p.tick b).vblank, spr0Hit := (p.tick b).spr0Hit, sprOverflow := (p.tick b).sprOverflow
        scanline := (p.tick b).scanline, dot := (p.tick b).dot, oddFrame := (p.tick b).oddFrame
        framebuffer := (p.tick b).framebuffer } := by
  have hidle : ¬ p.renderingInProgress = true := by simp [Ppu.renderingInProgress, h]
  obtain ⟨f, hf⟩ := Ppu.tick_idle b hidle
  rw [hf, Ppu.advance_changes, Ppu.flagDot_changes]

/-- So does any number of ticks, the mask being out of their reach. -/
theorem Ppu.iterate_tick_disabled_changes (b : Board) {p : Ppu} (h : p.rendering = false) (n : Nat) :
    (Ppu.tick b)^[n] p =
      { p with
        vblank := ((Ppu.tick b)^[n] p).vblank, spr0Hit := ((Ppu.tick b)^[n] p).spr0Hit
        sprOverflow := ((Ppu.tick b)^[n] p).sprOverflow, scanline := ((Ppu.tick b)^[n] p).scanline
        dot := ((Ppu.tick b)^[n] p).dot, oddFrame := ((Ppu.tick b)^[n] p).oddFrame
        framebuffer := ((Ppu.tick b)^[n] p).framebuffer } := by
  induction n with
  | zero => rfl
  | succ n ih =>
    have hq : ((Ppu.tick b)^[n] p).rendering = false := by
      rw [ih]
      exact h
    rw [Function.iterate_succ_apply', Ppu.tick_disabled_changes b hq, ih]

@[simp] theorem Ppu.advance_framebuffer (e : Bool) (p : Ppu) : (p.advance e).framebuffer = p.framebuffer := by
  rw [Ppu.advance_changes]

@[simp] theorem Ppu.flagDot_framebuffer (s d : Nat) (p : Ppu) : (p.flagDot s d).framebuffer = p.framebuffer := by
  rw [Ppu.flagDot_changes]

/-- With rendering disabled a visible dot writes the backdrop colour, and no other dot a pixel (R326). -/
theorem Ppu.tick_disabled_framebuffer (b : Board) {p : Ppu} (h : p.rendering = false) :
    (p.tick b).framebuffer =
      if p.scanline ≤ 239 ∧ 1 ≤ p.dot ∧ p.dot ≤ 256 then
        p.framebuffer.setPixel (p.dot - 1) p.scanline (p.colour 0)
      else p.framebuffer := by
  have hoff : ¬ (p.flagDot p.scanline p.dot).rendering = true := by
    rw [Ppu.rendering, Ppu.flagDot_mask]
    exact Bool.eq_false_iff.1 h
  unfold Ppu.tick Ppu.dotActions
  dsimp only
  rw [if_neg (fun hc => hoff hc.2), Ppu.advance_framebuffer]
  simp only [visibleLine, decide_eq_true_eq]
  split
  · simp only [Ppu.emitBackdrop, Ppu.colour, Ppu.flagDot_framebuffer, Ppu.flagDot_mask, Ppu.flagDot_palette]
  · exact Ppu.flagDot_framebuffer _ _ _

section
variable (b : Board) {p : Ppu} (hline : p.scanline = 0) (hdot : p.dot = 0) (h : p.rendering = false)
include hline hdot h

/-- The `n`-th position of the frame, counted along the lines (R291; D20, D21). -/
theorem Ppu.iterate_tick_disabled_position {n : Nat} (hn : n < 89342) :
    ((Ppu.tick b)^[n] p).oddFrame = p.oddFrame ∧
    ((Ppu.tick b)^[n] p).scanline * 341 + ((Ppu.tick b)^[n] p).dot = n ∧ ((Ppu.tick b)^[n] p).dot ≤ 340 := by
  induction n with
  | zero => exact ⟨rfl, by simp [hline, hdot], by simp [hdot]⟩
  | succ n ih =>
    obtain ⟨hodd, hpos, hle⟩ := ih (by omega)
    have hmask : ((Ppu.tick b)^[n] p).mask = p.mask := by rw [Ppu.iterate_tick_disabled_changes b h n]
    have hends : ((Ppu.tick b)^[n] p).frameEnds = false := by
      rw [Bool.eq_false_iff, Ne, Ppu.frameEnds_iff, hmask]
      rintro ⟨hlast, h340 | ⟨-, -, hren⟩⟩
      · omega
      · exact Bool.eq_false_iff.1 h hren
    obtain ⟨hodd', hpos', hle'⟩ := Ppu.tick_advances b hends hle
    rw [Function.iterate_succ_apply']
    exact ⟨hodd'.trans hodd, hpos'.trans (congrArg (· + 1) hpos), hle'⟩

/-- Every visible pixel passed holds the backdrop colour (R326). -/
theorem Ppu.iterate_tick_disabled_pixel {n : Nat} (hn : n ≤ 89342) {x y : Nat} (hx : x < 256) (hy : y < 240)
    (hpassed : y * 341 + x + 1 < n) : ((Ppu.tick b)^[n] p).framebuffer.pixel x y = p.colour 0 := by
  induction n with
  | zero => omega
  | succ n ih =>
    obtain ⟨-, hpos, hle⟩ := Ppu.iterate_tick_disabled_position b hline hdot h (n := n) (by omega)
    have hchanges := Ppu.iterate_tick_disabled_changes b h n
    have hren : ((Ppu.tick b)^[n] p).rendering = false := by
      rw [hchanges]
      exact h
    have hcolour : ((Ppu.tick b)^[n] p).colour 0 = p.colour 0 := by
      rw [hchanges]
      rfl
    rw [Function.iterate_succ_apply', Ppu.tick_disabled_framebuffer b hren, hcolour]
    by_cases hhere : y * 341 + x + 1 = n
    · rw [if_pos (by omega), FrameBuffer.pixel_setPixel, if_pos (by omega)]
    · have hbefore := ih (by omega) (by omega)
      split
      · rw [FrameBuffer.pixel_setPixel, if_neg (by omega), hbefore]
      · exact hbefore

/-- The last dot of the frame (R291, R292). -/
theorem Ppu.iterate_tick_disabled_frame {n : Nat} (hn : n = 89341) :
    ((Ppu.tick b)^[n + 1] p).scanline = 0 ∧ ((Ppu.tick b)^[n + 1] p).dot = 0 ∧
    ((Ppu.tick b)^[n + 1] p).oddFrame = !p.oddFrame := by
  obtain ⟨hodd, hpos, hle⟩ := Ppu.iterate_tick_disabled_position b hline hdot h (n := n) (by omega)
  have hends : ((Ppu.tick b)^[n] p).frameEnds = true := (Ppu.frameEnds_iff _).2 ⟨by omega, .inl (by omega)⟩
  rw [Function.iterate_succ_apply', ← hodd]
  exact Ppu.tick_frameEnds b hends

end

/-- `Colour(0)`: the backdrop, greyed if the mask says so (R325; D30). -/
theorem Ppu.colour_zero (p : Ppu) :
    p.colour 0 = if p.mask.getLsbD 0 then p.palette.read 0 &&& 0x30 else p.palette.read 0 := rfl

/-- Settles O46: one tick by whether it ends the frame; the blank frame by induction on the dots. -/
theorem rasterAdvancesAndBlankFrame : Obligations.RasterAdvancesAndBlankFrame := by
  unfold Obligations.RasterAdvancesAndBlankFrame
  refine ⟨fun b p _ hdot => ⟨fun hends => ?_, fun hskip hlast => ?_⟩, fun b p n hline hdot hren hn => ?_⟩
  · refine Ppu.tick_frameEnds b (p.frameEnds_iff.2 ?_)
    rcases hends with ⟨hl, hd, hodd, hr⟩ | ⟨hl, hd⟩
    · exact ⟨hl, .inr ⟨hd, hodd, hr⟩⟩
    · exact ⟨hl, .inl hd⟩
  · refine Ppu.tick_advances b (Bool.eq_false_iff.2 fun hends => ?_) hdot
    obtain ⟨hl, hd | ⟨hd, hodd, hr⟩⟩ := p.frameEnds_iff.1 hends
    · exact hlast ⟨hl, hd⟩
    · exact hskip ⟨hl, hd, hodd, hr⟩
  · have hchanges := Ppu.iterate_tick_disabled_changes b hren n
    refine ⟨fun hlt => ?_, fun hlast => ?_, ?_, ?_, ?_, ?_, ?_, ?_, ?_, ?_, ?_, ?_, fun hlast x y hx hy => ?_⟩
    · obtain ⟨hodd, hpos, hle⟩ := Ppu.iterate_tick_disabled_position b hline hdot hren hlt
      exact ⟨by omega, by omega, hodd⟩
    · obtain ⟨m, rfl⟩ : ∃ m, n = m + 1 := ⟨n - 1, by omega⟩
      exact Ppu.iterate_tick_disabled_frame b hline hdot hren (by omega)
    case refine_13 =>
      rw [Ppu.iterate_tick_disabled_pixel b hline hdot hren hn hx hy (by omega), Ppu.colour_zero]
    all_goals rw [hchanges]

end Sys2Proof.Machine

namespace Sys2Proof.Machine

/-! ## The status flags and OAMADDR over a tick (R296, R297, R318) -/

theorem Ppu.flagDot_vblank (s d : Nat) (p : Ppu) :
    (p.flagDot s d).vblank =
      if s = 241 ∧ d = 1 then true else if s = 261 ∧ d = 1 then false else p.vblank := by
  unfold Ppu.flagDot
  split
  · rfl
  · split <;> rfl

theorem Ppu.flagDot_spr0Hit (s d : Nat) (p : Ppu) :
    (p.flagDot s d).spr0Hit = if s = 261 ∧ d = 1 then false else p.spr0Hit := by
  unfold Ppu.flagDot
  split
  · rw [if_neg (by omega)]
  · split <;> rfl

theorem Ppu.flagDot_sprOverflow (s d : Nat) (p : Ppu) :
    (p.flagDot s d).sprOverflow = if s = 261 ∧ d = 1 then false else p.sprOverflow := by
  unfold Ppu.flagDot
  split
  · rw [if_neg (by omega)]
  · split <;> rfl

@[simp] theorem Ppu.emitted_vblank (s d : Nat) (p : Ppu) : (p.emitted s d).vblank = p.vblank := by
  rw [Ppu.emitted_changes]
@[simp] theorem Ppu.backgroundDot_vblank (b : Board) (d : Nat) (p : Ppu) :
    (p.backgroundDot b d).vblank = p.vblank := by
  rw [Ppu.backgroundDot_changes]
@[simp] theorem Ppu.lineEndDot_vblank (s d : Nat) (p : Ppu) : (p.lineEndDot s d).vblank = p.vblank := by
  rw [Ppu.lineEndDot_changes]
@[simp] theorem Ppu.spriteDot_vblank (b : Board) (s d : Nat) (p : Ppu) :
    (p.spriteDot b s d).vblank = p.vblank := by
  rw [Ppu.spriteDot_changes]
@[simp] theorem Ppu.verticalDot_vblank (s d : Nat) (p : Ppu) : (p.verticalDot s d).vblank = p.vblank := by
  rw [Ppu.verticalDot_changes]
@[simp] theorem Ppu.advance_vblank (e : Bool) (p : Ppu) : (p.advance e).vblank = p.vblank := by
  rw [Ppu.advance_changes]
@[simp] theorem Ppu.verticalDot_oamAddr (s d : Nat) (p : Ppu) : (p.verticalDot s d).oamAddr = p.oamAddr := by
  rw [Ppu.verticalDot_changes]
@[simp] theorem Ppu.advance_oamAddr (e : Bool) (p : Ppu) : (p.advance e).oamAddr = p.oamAddr := by
  rw [Ppu.advance_changes]

/-- A sprite fetch leaves OAMADDR (R319). -/
@[simp] theorem Ppu.spriteFetch_oamAddr (b : Board) (s d : Nat) (p : Ppu) :
    (p.spriteFetch b s d).oamAddr = p.oamAddr := by
  unfold Ppu.spriteFetch
  dsimp only
  split
  · split <;> rfl
  · split <;> split <;> rfl
  · rfl

/-- The sprite dots force OAMADDR to 0 (R318). -/
theorem Ppu.spriteDot_oamAddr (b : Board) (s : Nat) {d : Nat} (h : 257 ≤ d ∧ d ≤ 320) (p : Ppu) :
    (p.spriteDot b s d).oamAddr = 0 := by
  rw [Ppu.spriteDot, if_pos h, Ppu.spriteFetch_oamAddr]

/-- Sprite evaluation sets `spr_overflow` or leaves it (R322). -/
theorem Ppu.lineEndDot_sprOverflow_of_set (s d : Nat) {p : Ppu} (h : p.sprOverflow = true) :
    (p.lineEndDot s d).sprOverflow = true := by
  unfold Ppu.lineEndDot
  split
  · exact h
  · split
    · dsimp only
      split
      · simp [Ppu.evaluateSprites, h]
      · exact h
    · exact h

/-- An emitted pixel sets `spr0_hit` or leaves it (R328). -/
theorem Ppu.emitted_spr0Hit_of_set (s d : Nat) {p : Ppu} (h : p.spr0Hit = true) :
    (p.emitted s d).spr0Hit = true := by
  unfold Ppu.emitted
  split
  · simp [Ppu.emitPixel, h]
  · exact h

/-- Of a tick's stages only the flag dot touches `vblank` (R296, R297). -/
theorem Ppu.tick_vblank (b : Board) (p : Ppu) :
    (p.tick b).vblank = (p.flagDot p.scanline p.dot).vblank := by
  by_cases h : p.renderingInProgress = true
  · rw [Ppu.tick_drawing b h]
    simp
  · obtain ⟨f, hf⟩ := Ppu.tick_idle b h
    rw [hf]
    simp

theorem Ppu.tick_ctrl (b : Board) (p : Ppu) : (p.tick b).ctrl = p.ctrl := by
  by_cases h : p.renderingInProgress = true
  · rw [Ppu.tick_drawing b h]
    simp
  · obtain ⟨f, hf⟩ := Ppu.tick_idle b h
    rw [hf]
    simp

/-- Of a drawing tick's stages the flag dot and the emitted pixel touch `spr0_hit` (R297, R328). -/
theorem Ppu.tick_spr0Hit_drawing (b : Board) {p : Ppu} (h : p.renderingInProgress = true) :
    (p.tick b).spr0Hit = ((p.flagDot p.scanline p.dot).emitted p.scanline p.dot).spr0Hit := by
  rw [Ppu.tick_drawing b h]
  simp

theorem Ppu.tick_spr0Hit_idle (b : Board) {p : Ppu} (h : ¬ p.renderingInProgress = true) :
    (p.tick b).spr0Hit = (p.flagDot p.scanline p.dot).spr0Hit := by
  obtain ⟨f, hf⟩ := Ppu.tick_idle b h
  rw [hf]
  simp

/-- No tick but that of (261, 1) clears `spr0_hit` (R297, R328). -/
theorem Ppu.tick_spr0Hit_of_set (b : Board) {p : Ppu} (h : ¬ (p.scanline = 261 ∧ p.dot = 1))
    (hset : p.spr0Hit = true) : (p.tick b).spr0Hit = true := by
  have hflag : (p.flagDot p.scanline p.dot).spr0Hit = true := by rwa [Ppu.flagDot_spr0Hit, if_neg h]
  by_cases hdraw : p.renderingInProgress = true
  · rw [Ppu.tick_spr0Hit_drawing b hdraw]
    exact Ppu.emitted_spr0Hit_of_set _ _ hflag
  · rwa [Ppu.tick_spr0Hit_idle b hdraw]

/-- No tick but that of (261, 1) clears `spr_overflow` (R297, R322). -/
theorem Ppu.tick_sprOverflow_of_set (b : Board) {p : Ppu} (h : ¬ (p.scanline = 261 ∧ p.dot = 1))
    (hset : p.sprOverflow = true) : (p.tick b).sprOverflow = true := by
  have hflag : (p.flagDot p.scanline p.dot).sprOverflow = true := by rwa [Ppu.flagDot_sprOverflow, if_neg h]
  by_cases hdraw : p.renderingInProgress = true
  · rw [Ppu.tick_drawing b hdraw, Ppu.advance_sprOverflow, Ppu.verticalDot_sprOverflow,
      Ppu.spriteDot_sprOverflow]
    exact Ppu.lineEndDot_sprOverflow_of_set _ _ (by simpa using hflag)
  · obtain ⟨f, hf⟩ := Ppu.tick_idle b hdraw
    simpa [hf] using hflag

/-- The tick of (261, 1) clears both sprite flags, rendering or not (R297). -/
theorem Ppu.tick_sprite_flags_cleared (b : Board) {p : Ppu} (hline : p.scanline = 261) (hdot : p.dot = 1) :
    (p.tick b).spr0Hit = false ∧ (p.tick b).sprOverflow = false := by
  have hflag : p.flagDot 261 1 = { p with vblank := false, spr0Hit := false, sprOverflow := false } := rfl
  by_cases hdraw : p.renderingInProgress = true
  · rw [Ppu.tick_drawing b hdraw, hline, hdot, hflag]
    simp [Ppu.emitted, Ppu.lineEndDot, visibleLine]
  · obtain ⟨f, hf⟩ := Ppu.tick_idle b hdraw
    rw [hf, hline, hdot, hflag]
    simp

theorem Ppu.tick_oamAddr (b : Board) {p : Ppu} (h : p.renderingInProgress = true)
    (hdot : 257 ≤ p.dot ∧ p.dot ≤ 320) : (p.tick b).oamAddr = 0 := by
  rw [Ppu.tick_drawing b h, Ppu.advance_oamAddr, Ppu.verticalDot_oamAddr, Ppu.spriteDot_oamAddr b _ hdot]

/-- Settles O47: each flag by the stages of a tick that touch it. -/
theorem vblankAndOamAddrDots : Obligations.VblankAndOamAddrDots := by
  unfold Obligations.VblankAndOamAddrDots
  intro b p
  refine ⟨fun hline hdot => ?_, fun hline hdot => ⟨?_, Ppu.tick_sprite_flags_cleared b hline hdot⟩,
    fun hset hclear => ?_,
    fun hclear => ⟨Ppu.tick_spr0Hit_of_set b hclear, Ppu.tick_sprOverflow_of_set b hclear⟩,
    fun hmask hline hlo hhi => Ppu.tick_oamAddr b (p.renderingInProgress_iff.2 ⟨hmask, hline⟩) ⟨hlo, hhi⟩⟩
  · have hvblank : (p.tick b).vblank = true := by rw [Ppu.tick_vblank, Ppu.flagDot_vblank, if_pos ⟨hline, hdot⟩]
    refine ⟨hvblank, ?_⟩
    rw [Ppu.nmiOut, hvblank, Ppu.tick_ctrl, Bool.and_true]
  · rw [Ppu.tick_vblank, Ppu.flagDot_vblank, if_neg (by omega), if_pos ⟨hline, hdot⟩]
  · rw [Ppu.tick_vblank, Ppu.flagDot_vblank, if_neg hset, if_neg hclear]

end Sys2Proof.Machine

namespace Sys2Proof.Machine

open Sys2Proof.Spec (coarseX coarseY ntSelect fineY)

/-! ## `v` as its four fields (10_state.md R34) -/

/-- The `v` of fine Y, nametable select, coarse Y and coarse X. -/
def vramOf (fy : BitVec 3) (nt : BitVec 2) (cy cx : BitVec 5) : Vram := fy ++ (nt ++ (cy ++ cx))

theorem vramOf_toNat (fy : BitVec 3) (nt : BitVec 2) (cy cx : BitVec 5) :
    (vramOf fy nt cy cx).toNat = 4096 * fy.toNat + 1024 * nt.toNat + 32 * cy.toNat + cx.toNat := by
  have hcx := cx.isLt
  have hcy : (cy ++ cx).toNat = 32 * cy.toNat + cx.toNat := by
    rw [BitVec.toNat_append, ← Nat.shiftLeft_add_eq_or_of_lt hcx, Nat.shiftLeft_eq]
    omega
  have hnt : (nt ++ (cy ++ cx)).toNat = 1024 * nt.toNat + 32 * cy.toNat + cx.toNat := by
    rw [BitVec.toNat_append, ← Nat.shiftLeft_add_eq_or_of_lt (cy ++ cx).isLt, Nat.shiftLeft_eq, hcy]
    omega
  rw [vramOf, BitVec.toNat_append, ← Nat.shiftLeft_add_eq_or_of_lt (nt ++ (cy ++ cx)).isLt, Nat.shiftLeft_eq, hnt]
  omega

/-- Every `v` has four fields. -/
theorem exists_vramOf (v : Vram) : ∃ fy nt cy cx, v = vramOf fy nt cy cx := by
  refine ⟨BitVec.ofNat 3 (fineY v), BitVec.ofNat 2 (ntSelect v), BitVec.ofNat 5 (coarseY v),
    BitVec.ofNat 5 (coarseX v), ?_⟩
  have hv := v.isLt
  apply BitVec.eq_of_toNat_eq
  simp only [vramOf_toNat, BitVec.toNat_ofNat, fineY, ntSelect, coarseY, coarseX]
  omega

section
variable (fy fy' : BitVec 3) (nt nt' : BitVec 2) (cy cy' cx cx' : BitVec 5)

@[simp] theorem coarseX_vramOf : coarseX (vramOf fy nt cy cx) = cx.toNat := by
  have := cx.isLt
  rw [coarseX, vramOf_toNat]
  omega

@[simp] theorem coarseY_vramOf : coarseY (vramOf fy nt cy cx) = cy.toNat := by
  have := cx.isLt
  have := cy.isLt
  rw [coarseY, vramOf_toNat]
  omega

@[simp] theorem ntSelect_vramOf : ntSelect (vramOf fy nt cy cx) = nt.toNat := by
  have := cx.isLt
  have := cy.isLt
  have := nt.isLt
  rw [ntSelect, vramOf_toNat]
  omega

@[simp] theorem fineY_vramOf : fineY (vramOf fy nt cy cx) = fy.toNat := by
  have := cx.isLt
  have := cy.isLt
  have := nt.isLt
  rw [fineY, vramOf_toNat]
  omega

theorem vramOf_and :
    vramOf fy nt cy cx &&& vramOf fy' nt' cy' cx' = vramOf (fy &&& fy') (nt &&& nt') (cy &&& cy') (cx &&& cx') := by
  have h : (fy ++ (nt ++ (cy ++ cx))) &&& (fy' ++ (nt' ++ (cy' ++ cx'))) =
      (fy &&& fy') ++ ((nt &&& nt') ++ ((cy &&& cy') ++ (cx &&& cx'))) := by
    simp only [BitVec.and_append]
  exact h

theorem vramOf_or :
    vramOf fy nt cy cx ||| vramOf fy' nt' cy' cx' = vramOf (fy ||| fy') (nt ||| nt') (cy ||| cy') (cx ||| cx') := by
  have h : (fy ++ (nt ++ (cy ++ cx))) ||| (fy' ++ (nt' ++ (cy' ++ cx'))) =
      (fy ||| fy') ++ ((nt ||| nt') ++ ((cy ||| cy') ++ (cx ||| cx'))) := by
    simp only [BitVec.or_append]
  exact h

theorem vramOf_xor :
    vramOf fy nt cy cx ^^^ vramOf fy' nt' cy' cx' = vramOf (fy ^^^ fy') (nt ^^^ nt') (cy ^^^ cy') (cx ^^^ cx') := by
  have h : (fy ++ (nt ++ (cy ++ cx))) ^^^ (fy' ++ (nt' ++ (cy' ++ cx'))) =
      (fy ^^^ fy') ++ ((nt ^^^ nt') ++ ((cy ^^^ cy') ++ (cx ^^^ cx'))) := by
    simp only [BitVec.xor_append]
  exact h

theorem vramOf_inj : vramOf fy nt cy cx = vramOf fy' nt' cy' cx' ↔ fy = fy' ∧ nt = nt' ∧ cy = cy' ∧ cx = cx' := by
  refine ⟨fun h => ?_, fun ⟨h1, h2, h3, h4⟩ => by rw [h1, h2, h3, h4]⟩
  refine ⟨BitVec.eq_of_toNat_eq ?_, BitVec.eq_of_toNat_eq ?_, BitVec.eq_of_toNat_eq ?_, BitVec.eq_of_toNat_eq ?_⟩
  · simpa using congrArg fineY h
  · simpa using congrArg ntSelect h
  · simpa using congrArg coarseY h
  · simpa using congrArg coarseX h

/-! ### The masks of R304 and R305: one field kept, one cleared, one bit of the nametable select switched -/

theorem vramOf_and_001F : vramOf fy nt cy cx &&& 0x001F = vramOf 0 0 0 cx := by
  rw [show (0x001F : Vram) = vramOf 0#3 0#2 0#5 (BitVec.allOnes 5) from rfl, vramOf_and]
  simp only [BitVec.and_allOnes, BitVec.and_zero]
  rfl

theorem vramOf_and_7000 : vramOf fy nt cy cx &&& 0x7000 = vramOf fy 0 0 0 := by
  rw [show (0x7000 : Vram) = vramOf (BitVec.allOnes 3) 0#2 0#5 0#5 from rfl, vramOf_and]
  simp only [BitVec.and_allOnes, BitVec.and_zero]
  rfl

theorem vramOf_and_03E0 : vramOf fy nt cy cx &&& 0x03E0 = vramOf 0 0 cy 0 := by
  rw [show (0x03E0 : Vram) = vramOf 0#3 0#2 (BitVec.allOnes 5) 0#5 from rfl, vramOf_and]
  simp only [BitVec.and_allOnes, BitVec.and_zero]
  rfl

theorem vramOf_and_not_001F : vramOf fy nt cy cx &&& ~~~(0x001F : Vram) = vramOf fy nt cy 0 := by
  rw [show ~~~(0x001F : Vram) = vramOf (BitVec.allOnes 3) (BitVec.allOnes 2) (BitVec.allOnes 5) 0#5 from rfl,
    vramOf_and]
  simp only [BitVec.and_allOnes, BitVec.and_zero]
  rfl

theorem vramOf_and_not_7000 : vramOf fy nt cy cx &&& ~~~(0x7000 : Vram) = vramOf 0 nt cy cx := by
  rw [show ~~~(0x7000 : Vram) = vramOf 0#3 (BitVec.allOnes 2) (BitVec.allOnes 5) (BitVec.allOnes 5) from rfl,
    vramOf_and]
  simp only [BitVec.and_allOnes, BitVec.and_zero]
  rfl

theorem vramOf_and_not_03E0 : vramOf fy nt cy cx &&& ~~~(0x03E0 : Vram) = vramOf fy nt 0 cx := by
  rw [show ~~~(0x03E0 : Vram) = vramOf (BitVec.allOnes 3) (BitVec.allOnes 2) 0#5 (BitVec.allOnes 5) from rfl,
    vramOf_and]
  simp only [BitVec.and_allOnes, BitVec.and_zero]
  rfl

theorem vramOf_xor_0400 : vramOf fy nt cy cx ^^^ 0x0400 = vramOf fy (nt ^^^ 1) cy cx := by
  rw [show (0x0400 : Vram) = vramOf 0#3 1 0#5 0#5 from rfl, vramOf_xor]
  simp only [BitVec.xor_zero]

theorem vramOf_xor_0800 : vramOf fy nt cy cx ^^^ 0x0800 = vramOf fy (nt ^^^ 2) cy cx := by
  rw [show (0x0800 : Vram) = vramOf 0#3 2 0#5 0#5 from rfl, vramOf_xor]
  simp only [BitVec.xor_zero]

/-- Coarse Y brought down to the low bits (R305). -/
theorem vramOf_coarseY_shifted : (vramOf fy nt cy cx &&& 0x03E0) >>> 5 = cy.setWidth 15 := by
  apply BitVec.eq_of_toNat_eq
  rw [vramOf_and_03E0, BitVec.toNat_ushiftRight, Nat.shiftRight_eq_div_pow, vramOf_toNat,
    BitVec.toNat_setWidth_of_le (by decide)]
  simp

/-- The next coarse Y, put back in its place (R305). -/
theorem vramOf_coarseY_next (h : cy ≠ 31) : (cy.setWidth 15 + 1 : Vram) <<< 5 = vramOf 0 0 (cy + 1) 0 := by
  have hy := cy.isLt
  have hne : cy.toNat ≠ 31 := fun hc => h (BitVec.eq_of_toNat_eq hc)
  apply BitVec.eq_of_toNat_eq
  rw [vramOf_toNat, BitVec.toNat_shiftLeft, Nat.shiftLeft_eq, BitVec.toNat_add, BitVec.toNat_add,
    BitVec.toNat_setWidth_of_le (by decide)]
  simp
  omega

theorem coarseY_setWidth_inj : (cy.setWidth 15 : Vram) = cy'.setWidth 15 ↔ cy = cy' := by
  rw [← BitVec.toNat_inj, ← BitVec.toNat_inj, BitVec.toNat_setWidth_of_le (by decide),
    BitVec.toNat_setWidth_of_le (by decide)]

/-! ### The movements of `v` on its fields (R304, R305) -/

theorem vramOf_coarseX_full : vramOf fy nt cy cx &&& 0x001F = 31 ↔ cx = 31 := by
  rw [vramOf_and_001F, show (31 : Vram) = vramOf 0 0 0 31 from rfl, vramOf_inj]
  simp

theorem vramOf_fineY_full : vramOf fy nt cy cx &&& 0x7000 = 0x7000 ↔ fy = 7 := by
  rw [vramOf_and_7000, show (0x7000 : Vram) = vramOf 7 0 0 0 from rfl, vramOf_inj]
  simp

/-- `IncCoarseX` past the last column switches the horizontal nametable (R304). -/
theorem incCoarseX_wrap : incCoarseX (vramOf fy nt cy 31) = vramOf fy (nt ^^^ 1) cy 0 := by
  rw [incCoarseX, if_pos ((vramOf_coarseX_full ..).2 rfl), vramOf_and_not_001F, vramOf_xor_0400]

/-- `IncCoarseX` before the last column adds 1 to coarse X alone (R304). -/
theorem incCoarseX_next (h : cx ≠ 31) : incCoarseX (vramOf fy nt cy cx) = vramOf fy nt cy (cx + 1) := by
  have hx := cx.isLt
  have hn := (vramOf fy nt cy (cx + 1)).isLt
  have hne : cx.toNat ≠ 31 := fun hc => h (BitVec.eq_of_toNat_eq hc)
  rw [incCoarseX, if_neg (mt (vramOf_coarseX_full ..).1 h)]
  apply BitVec.eq_of_toNat_eq
  rw [vramOf_toNat, BitVec.toNat_add] at *
  rw [vramOf_toNat]
  simp at *
  omega

/-- `IncFineY` before the last row of a tile adds 1 to fine Y alone (R305). -/
theorem incFineY_next (h : fy ≠ 7) : incFineY (vramOf fy nt cy cx) = vramOf (fy + 1) nt cy cx := by
  have hy := fy.isLt
  have hn := (vramOf (fy + 1) nt cy cx).isLt
  have hne : fy.toNat ≠ 7 := fun hc => h (BitVec.eq_of_toNat_eq hc)
  rw [incFineY, if_pos (mt (vramOf_fineY_full ..).1 h)]
  apply BitVec.eq_of_toNat_eq
  rw [vramOf_toNat, BitVec.toNat_add] at *
  rw [vramOf_toNat]
  simp at *
  omega

/-- `IncFineY` past the last row of a tile, before the cases of coarse Y (R305). -/
theorem incFineY_carry :
    incFineY (vramOf 7 nt cy cx) =
      if cy = 29 then vramOf 0 (nt ^^^ 2) 0 cx
      else if cy = 31 then vramOf 0 nt 0 cx
      else vramOf 0 nt (cy + 1) cx := by
  have h29 : cy.setWidth 15 = (29 : Vram) ↔ cy = 29 := coarseY_setWidth_inj cy 29
  have h31 : cy.setWidth 15 = (31 : Vram) ↔ cy = 31 := coarseY_setWidth_inj cy 31
  rw [incFineY, if_neg (not_not.2 ((vramOf_fineY_full ..).2 rfl))]
  simp only [vramOf_and_not_7000, vramOf_coarseY_shifted, vramOf_xor_0800, vramOf_and_not_03E0, h29, h31]
  split
  · rfl
  · split
    · rfl
    · rename_i hcy
      rw [vramOf_coarseY_next cy hcy, vramOf_or]
      simp

end

/-! ### The four movements in the statements' words (R304 to R307) -/

/-- `IncCoarseX` as numbers (R304). -/
theorem incCoarseX_fields (v : Vram) :
    coarseX (incCoarseX v) = (coarseX v + 1) % 32 ∧ coarseY (incCoarseX v) = coarseY v ∧
    fineY (incCoarseX v) = fineY v ∧
    ntSelect (incCoarseX v) =
      if coarseX v = 31 then (if ntSelect v % 2 = 0 then ntSelect v + 1 else ntSelect v - 1) else ntSelect v := by
  obtain ⟨fy, nt, cy, cx, rfl⟩ := exists_vramOf v
  have hflip : ∀ n : BitVec 2, (n ^^^ 1#2).toNat = if n.toNat % 2 = 0 then n.toNat + 1 else n.toNat - 1 := by decide
  by_cases hx : cx = 31
  · subst hx
    rw [incCoarseX_wrap]
    simp [hflip, -BitVec.toNat_xor]
  · have hne : cx.toNat ≠ 31 := fun hc => hx (BitVec.eq_of_toNat_eq hc)
    rw [incCoarseX_next _ _ _ _ hx]
    simp [hne, BitVec.toNat_add]

/-- `IncFineY` as numbers (R305). -/
theorem incFineY_fields (v : Vram) :
    fineY (incFineY v) = (fineY v + 1) % 8 ∧ coarseX (incFineY v) = coarseX v ∧
    coarseY (incFineY v) =
      (if fineY v < 7 then coarseY v else if coarseY v = 29 ∨ coarseY v = 31 then 0 else coarseY v + 1) ∧
    ntSelect (incFineY v) =
      if fineY v = 7 ∧ coarseY v = 29 then (ntSelect v + 2) % 4 else ntSelect v := by
  obtain ⟨fy, nt, cy, cx, rfl⟩ := exists_vramOf v
  have hflip : ∀ n : BitVec 2, (n ^^^ 2#2).toNat = (n.toNat + 2) % 4 := by decide
  by_cases hf : fy = 7
  · subst hf
    have hcy := cy.isLt
    have h29 : cy = 29 ↔ cy.toNat = 29 := BitVec.toNat_inj.symm
    have h31 : cy = 31 ↔ cy.toNat = 31 := BitVec.toNat_inj.symm
    rw [incFineY_carry]
    simp only [h29, h31]
    split
    · rename_i hy
      simp [hy, hflip, -BitVec.toNat_xor]
    · rename_i hy
      split
      · rename_i hy'
        simp [hy']
      · rename_i hy'
        simp [hy, hy', BitVec.toNat_add]
        omega
  · have hlt := fy.isLt
    have hne : fy.toNat ≠ 7 := fun hc => hf (BitVec.eq_of_toNat_eq hc)
    rw [incFineY_next _ _ _ _ hf]
    simp [hne, BitVec.toNat_add]
    omega

/-- `CopyHorizontal` and `CopyVertical` bit by bit: `t[10]`, `t[4:0]` and the other ten (R306, R307). -/
theorem copies_getLsbD (v t : Vram) {j : Nat} (hj : j < 15) :
    (copyHorizontal v t).getLsbD j = (if j < 5 ∨ j = 10 then t.getLsbD j else v.getLsbD j) ∧
    (copyVertical v t).getLsbD j = if 5 ≤ j ∧ j ≠ 10 then t.getLsbD j else v.getLsbD j := by
  unfold copyHorizontal copyVertical
  interval_cases j <;> simp

/-! ## The dots that move `v` (R290, R300) -/

/-- A fetch moves `v` at the last phase of a tile alone (R300, R304). -/
theorem Ppu.backgroundFetch_v (b : Board) (d : Nat) (p : Ppu) :
    (p.backgroundFetch b d).v = if (d - 1) % 8 = 7 then incCoarseX p.v else p.v := by
  unfold Ppu.backgroundFetch
  split
  case h_5 hother => rw [if_neg hother]
  all_goals simp [*, Ppu.reloadShifters]

/-- A background dot moves `v` at the multiples of 8 (R290, R300). -/
theorem Ppu.backgroundDot_v (b : Board) (d : Nat) (p : Ppu) :
    (p.backgroundDot b d).v =
      if d % 8 = 0 ∧ (1 ≤ d ∧ d ≤ 256 ∨ 321 ≤ d ∧ d ≤ 336) then incCoarseX p.v else p.v := by
  unfold Ppu.backgroundDot
  by_cases hdots : 1 ≤ d ∧ d ≤ 256 ∨ 321 ≤ d ∧ d ≤ 336
  · have hphase : (d - 1) % 8 = 7 ↔ d % 8 = 0 := by omega
    simp only [hdots, if_true, and_true, Ppu.backgroundFetch_v, hphase]
    rfl
  · rw [if_neg hdots, if_neg (fun hc => hdots hc.2)]

/-- Dot 256 moves `v` to the next row, dot 257 back to the first column (R305, R306); evaluation leaves it. -/
theorem Ppu.lineEndDot_v (s d : Nat) (p : Ppu) :
    (p.lineEndDot s d).v =
      if d = 256 then incFineY p.v else if d = 257 then copyHorizontal p.v p.t else p.v := by
  unfold Ppu.lineEndDot
  split
  · rfl
  · split
    · dsimp only
      split
      · rw [Ppu.evaluateSprites_changes]
      · rfl
    · rfl

theorem Ppu.verticalDot_v (s d : Nat) (p : Ppu) :
    (p.verticalDot s d).v = if s = 261 ∧ 280 ≤ d ∧ d ≤ 304 then copyVertical p.v p.t else p.v := by
  unfold Ppu.verticalDot
  split <;> rfl

/-- `v` after a drawing tick: what its background dot, line-end dot and vertical dot make of it (R290). -/
theorem Ppu.tick_v_drawing (b : Board) {p : Ppu} (h : p.renderingInProgress = true) :
    (p.tick b).v =
      if p.dot = 256 then incFineY (incCoarseX p.v)
      else if p.dot = 257 then copyHorizontal p.v p.t
      else if p.scanline = 261 ∧ 280 ≤ p.dot ∧ p.dot ≤ 304 then copyVertical p.v p.t
      else if p.dot % 8 = 0 ∧ (1 ≤ p.dot ∧ p.dot < 256 ∨ 321 ≤ p.dot ∧ p.dot ≤ 336) then incCoarseX p.v
      else p.v := by
  rw [Ppu.tick_drawing b h, Ppu.advance_v, Ppu.verticalDot_v, Ppu.spriteDot_v, Ppu.lineEndDot_v,
    Ppu.backgroundDot_v]
  simp only [Ppu.emitted_v, Ppu.flagDot_v, Ppu.spriteDot_t, Ppu.lineEndDot_t, Ppu.backgroundDot_t, Ppu.emitted_t,
    Ppu.flagDot_t]
  by_cases h256 : p.dot = 256
  · simp [h256]
  by_cases h257 : p.dot = 257
  · simp [h257]
  by_cases hvertical : p.scanline = 261 ∧ 280 ≤ p.dot ∧ p.dot ≤ 304
  · have hno : ¬ (p.dot % 8 = 0 ∧ (1 ≤ p.dot ∧ p.dot ≤ 256 ∨ 321 ≤ p.dot ∧ p.dot ≤ 336)) := by omega
    simp only [h256, h257, hno, if_false, if_pos hvertical]
  · have hdots : 1 ≤ p.dot ∧ p.dot ≤ 256 ∨ 321 ≤ p.dot ∧ p.dot ≤ 336 ↔
        1 ≤ p.dot ∧ p.dot < 256 ∨ 321 ≤ p.dot ∧ p.dot ≤ 336 := by omega
    simp only [h256, h257, hvertical, hdots, if_false]

theorem Ppu.tick_v_idle (b : Board) {p : Ppu} (h : ¬ p.renderingInProgress = true) : (p.tick b).v = p.v := by
  obtain ⟨f, hf⟩ := Ppu.tick_idle b h
  rw [hf, Ppu.advance_v]
  exact Ppu.flagDot_v _ _ _

/-- Settles O48: the movements on the four fields of `v`, and a tick by its stages that move it. -/
theorem scrollArithmeticOnFields : Obligations.ScrollArithmeticOnFields := by
  unfold Obligations.ScrollArithmeticOnFields
  refine ⟨incCoarseX_fields, incFineY_fields, fun v t j hj => copies_getLsbD v t hj, fun b p => ?_⟩
  dsimp only
  by_cases hactive : p.renderingInProgress = true
  · rw [if_neg (not_not.2 (p.renderingInProgress_iff.1 hactive))]
    exact Ppu.tick_v_drawing b hactive
  · rw [if_pos (mt p.renderingInProgress_iff.2 hactive)]
    exact Ppu.tick_v_idle b hactive

end Sys2Proof.Machine

namespace Sys2Proof.Machine

open Sys2Proof.Spec (coarseX coarseY ntSelect fineY drawing backgroundDots background)

/-! ## Masks and disjoint ORs as numbers -/

theorem nat_and_field (n k w : Nat) : n &&& (2 ^ w - 1) * 2 ^ k = n / 2 ^ k % 2 ^ w * 2 ^ k := by
  apply Nat.eq_of_testBit_eq
  intro i
  by_cases hi : k ≤ i
  · simp [Nat.testBit_and, Nat.testBit_mul_two_pow, Nat.testBit_two_pow_sub_one, Nat.testBit_mod_two_pow,
      Nat.testBit_div_two_pow, hi, Bool.and_comm]
  · simp [Nat.testBit_and, Nat.testBit_mul_two_pow, hi]

/-- A mask of `w` ones from bit `k` up keeps that field in its place. -/
theorem toNat_and_field {n : Nat} (x c : BitVec n) (k w : Nat) (hc : c.toNat = (2 ^ w - 1) * 2 ^ k) :
    (x &&& c).toNat = x.toNat / 2 ^ k % 2 ^ w * 2 ^ k := by
  rw [BitVec.toNat_and, hc, nat_and_field]

/-- An OR with what lies below every bit of the other is their sum. -/
theorem toNat_or_below {n : Nat} {x y : BitVec n} (k : Nat) (hx : x.toNat % 2 ^ k = 0) (hy : y.toNat < 2 ^ k) :
    (x ||| y).toNat = x.toNat + y.toNat := by
  have hmul : x.toNat = 2 ^ k * (x.toNat / 2 ^ k) := by
    have := Nat.div_add_mod x.toNat (2 ^ k)
    omega
  rw [BitVec.toNat_or, hmul, Nat.two_pow_add_eq_or_of_lt hy]

/-! ## The background's addresses (R301, R302, R303) -/

theorem Ppu.ntAddr_toNat (p : Ppu) : p.ntAddr.toNat = 0x2000 + p.v.toNat % 4096 := by
  have hlow : ((p.v &&& 0x0FFF).setWidth 14).toNat = p.v.toNat % 4096 := by
    rw [BitVec.toNat_setWidth, toNat_and_field p.v 0x0FFF 0 12 rfl]
    omega
  rw [Ppu.ntAddr, toNat_or_below 12 rfl (by omega), hlow]
  rfl

/-- The base of the tables of palette bits, and the table selected (R302). -/
theorem atTable_toNat (v : Vram) :
    (0x23C0#14 ||| (v &&& 0x0C00).setWidth 14).toNat = 0x23C0 + 0x400 * ntSelect v := by
  have hnt : ((v &&& 0x0C00).setWidth 14).toNat = 0x400 * ntSelect v := by
    rw [BitVec.toNat_setWidth, toNat_and_field v 0x0C00 10 2 rfl, ntSelect]
    omega
  have hapart : 0x23C0#14 &&& (v &&& 0x0C00).setWidth 14 = 0#14 := by
    apply BitVec.eq_of_getLsbD_eq
    intro i hi
    interval_cases i <;> simp
  rw [← BitVec.add_eq_or_of_and_eq_zero _ _ hapart, BitVec.toNat_add_of_and_eq_zero hapart, hnt]
  rfl

theorem Ppu.atAddr_toNat (p : Ppu) :
    p.atAddr.toNat = 0x23C0 + 0x400 * ntSelect p.v + 8 * (coarseY p.v / 4) + coarseX p.v / 4 := by
  have hrow : (((p.v >>> 4) &&& 0x38).setWidth 14).toNat = 8 * (coarseY p.v / 4) := by
    rw [BitVec.toNat_setWidth, toNat_and_field (p.v >>> 4) 0x38 3 3 rfl, BitVec.toNat_ushiftRight,
      Nat.shiftRight_eq_div_pow, coarseY]
    omega
  have hcol : (((p.v >>> 2) &&& 0x07).setWidth 14).toNat = coarseX p.v / 4 := by
    rw [BitVec.toNat_setWidth, toNat_and_field (p.v >>> 2) 0x07 0 3 rfl, BitVec.toNat_ushiftRight,
      Nat.shiftRight_eq_div_pow, coarseX]
    omega
  have hy : coarseY p.v < 32 := Nat.mod_lt _ (by decide)
  have hx : coarseX p.v < 32 := Nat.mod_lt _ (by decide)
  have htable := atTable_toNat p.v
  have habove : (0x23C0#14 ||| (p.v &&& 0x0C00).setWidth 14 ||| ((p.v >>> 4) &&& 0x38).setWidth 14).toNat =
      0x23C0 + 0x400 * ntSelect p.v + 8 * (coarseY p.v / 4) := by
    rw [toNat_or_below 6 (by omega) (by omega), htable, hrow]
  rw [Ppu.atAddr, toNat_or_below 3 (by omega) (by omega), habove, hcol]

/-- Which two bits of the byte: bit 1 of coarse Y and bit 1 of coarse X choose (R302). -/
theorem Ppu.atSelect_toNat (p : Ppu) (attr : Byte) :
    (p.atSelect attr).toNat =
      attr.toNat / 2 ^ (4 * (coarseY p.v / 2 % 2) + 2 * (coarseX p.v / 2 % 2)) % 4 := by
  have hrow : ((p.v >>> 4) &&& 4).toNat = 4 * (coarseY p.v / 2 % 2) := by
    rw [toNat_and_field (p.v >>> 4) 4 2 1 rfl, BitVec.toNat_ushiftRight, Nat.shiftRight_eq_div_pow, coarseY]
    omega
  have hcol : (p.v &&& 2).toNat = 2 * (coarseX p.v / 2 % 2) := by
    rw [toNat_and_field p.v 2 1 1 rfl, coarseX]
    omega
  rw [Ppu.atSelect, BitVec.toNat_setWidth, BitVec.toNat_ushiftRight, Nat.shiftRight_eq_div_pow,
    toNat_or_below 2 (by omega) (by omega), hrow, hcol]

/-- A pattern address: a table of 4 KiB, sixteen bytes a tile, and the row (R303, R320). -/
theorem patternAddr_toNat {base row : PpuAddr} (tile : Byte) (hbase : base.toNat % 2 ^ 12 = 0)
    (hrow : row.toNat < 2 ^ 4) :
    (base ||| tile.setWidth 14 <<< 4 ||| row).toNat = base.toNat + 16 * tile.toNat + row.toNat := by
  have ht := tile.isLt
  have htile : (tile.setWidth 14 <<< 4).toNat = 16 * tile.toNat := by
    rw [BitVec.toNat_shiftLeft, Nat.shiftLeft_eq, BitVec.toNat_setWidth]
    omega
  have habove : (base ||| tile.setWidth 14 <<< 4).toNat = base.toNat + 16 * tile.toNat := by
    rw [toNat_or_below 12 hbase (by omega), htile]
  rw [toNat_or_below 4 (by omega) hrow, habove]

theorem Ppu.patAddr_toNat (p : Ppu) :
    p.patAddr.toNat = (if p.ctrl.getLsbD 4 then 0x1000 else 0) + 16 * p.ntByte.toNat + fineY p.v := by
  have hv := p.v.isLt
  have hrow : ((p.v >>> 12).setWidth 14).toNat = fineY p.v := by
    rw [BitVec.toNat_setWidth, BitVec.toNat_ushiftRight, Nat.shiftRight_eq_div_pow, fineY]
    omega
  have hfine : fineY p.v < 8 := by
    rw [fineY]
    omega
  rw [Ppu.patAddr, patternAddr_toNat p.ntByte (by split <;> rfl) (by omega), hrow]
  split <;> rfl

/-! ## What each phase of a tile fetches (R300) -/

theorem Ppu.backgroundFetch_even (b : Board) {d : Nat} (h : (d - 1) % 8 % 2 = 0) (p : Ppu) :
    p.backgroundFetch b d = p := by
  unfold Ppu.backgroundFetch
  split
  case h_5 => rfl
  all_goals omega

theorem Ppu.backgroundFetch_nametable (b : Board) {d : Nat} (h : (d - 1) % 8 = 1) (p : Ppu) :
    p.backgroundFetch b d = { p with ntByte := ppuRead b p p.ntAddr } := by
  simp only [Ppu.backgroundFetch, h]

theorem Ppu.backgroundFetch_atBits (b : Board) {d : Nat} (h : (d - 1) % 8 = 3) (p : Ppu) :
    p.backgroundFetch b d = { p with atBits := p.atSelect (ppuRead b p p.atAddr) } := by
  simp only [Ppu.backgroundFetch, h]

theorem Ppu.backgroundFetch_low (b : Board) {d : Nat} (h : (d - 1) % 8 = 5) (p : Ppu) :
    p.backgroundFetch b d = { p with ptLo := ppuRead b p p.patAddr } := by
  simp only [Ppu.backgroundFetch, h]

/-- The last phase fetches the high plane, reloads the shifters and latches, and moves `v` on (R300, R308). -/
theorem Ppu.backgroundFetch_high (b : Board) {d : Nat} (h : (d - 1) % 8 = 7) (p : Ppu) :
    p.backgroundFetch b d =
      { p with
        ptHi := ppuRead b p (p.patAddr + 8), atLatchLo := p.atBits.getLsbD 0, atLatchHi := p.atBits.getLsbD 1
        bgLo := (p.bgLo &&& 0xFF00) ||| p.ptLo.setWidth 16
        bgHi := (p.bgHi &&& 0xFF00) ||| (ppuRead b p (p.patAddr + 8)).setWidth 16, v := incCoarseX p.v } := by
  simp only [Ppu.backgroundFetch, h, Ppu.reloadShifters]

/-- A reload puts a byte under the high half of a shifter (R308). -/
theorem reload_getLsbD (s : BitVec 16) (pt : Byte) {j : Nat} (hj : j < 8) :
    ((s &&& 0xFF00) ||| pt.setWidth 16).getLsbD j = pt.getLsbD j ∧
    ((s &&& 0xFF00) ||| pt.setWidth 16).getLsbD (j + 8) = s.getLsbD (j + 8) := by
  interval_cases j <;> simp

/-! ## The shift (R308) -/

theorem shiftLeft_one_getLsbD {n : Nat} (x : BitVec n) {j : Nat} (hj : j + 1 < n) :
    (x <<< 1).getLsbD (j + 1) = x.getLsbD j := by
  have hpos : ¬ j + 1 < 1 := by omega
  rw [BitVec.getLsbD_shiftLeft, Nat.add_sub_cancel]
  simp only [hj, hpos, decide_true, decide_false, Bool.not_false, Bool.true_and]

theorem shiftLeft_one_getLsbD_zero {n : Nat} (x : BitVec n) : (x <<< 1).getLsbD 0 = false := by
  simp

/-- A shift that takes its low bit from a latch (R308). -/
theorem shiftIn_getLsbD (x : Byte) (k : Bool) :
    ((x <<< 1) ||| lowBit k).getLsbD 0 = k ∧
    ∀ j, j < 7 → ((x <<< 1) ||| lowBit k).getLsbD (j + 1) = x.getLsbD j := by
  have hzero : (lowBit k).getLsbD 0 = k := by cases k <;> rfl
  have hsucc (j : Nat) : (lowBit k).getLsbD (j + 1) = false := by cases k <;> simp [lowBit]
  refine ⟨?_, fun j hj => ?_⟩
  · rw [BitVec.getLsbD_or, shiftLeft_one_getLsbD_zero, hzero, Bool.false_or]
  · rw [BitVec.getLsbD_or, shiftLeft_one_getLsbD x (by omega), hsucc, Bool.or_false]

/-! ## The background over a tick (R290) -/

@[simp] theorem Ppu.flagDot_background (s d : Nat) (p : Ppu) : background (p.flagDot s d) = background p := by
  rw [Ppu.flagDot_changes]
  rfl
@[simp] theorem Ppu.lineEndDot_background (s d : Nat) (p : Ppu) : background (p.lineEndDot s d) = background p := by
  rw [Ppu.lineEndDot_changes]
  rfl
@[simp] theorem Ppu.spriteDot_background (b : Board) (s d : Nat) (p : Ppu) :
    background (p.spriteDot b s d) = background p := by
  rw [Ppu.spriteDot_changes]
  rfl
@[simp] theorem Ppu.verticalDot_background (s d : Nat) (p : Ppu) : background (p.verticalDot s d) = background p := by
  rw [Ppu.verticalDot_changes]
  rfl
@[simp] theorem Ppu.advance_background (e : Bool) (p : Ppu) : background (p.advance e) = background p := by
  rw [Ppu.advance_changes]
  rfl

/-- Neither the flags nor an emitted pixel are in what a background dot reads or leaves. -/
theorem Ppu.backgroundDot_background_emitted (b : Board) (s d : Nat) (p : Ppu) :
    background (((p.flagDot s d).emitted s d).backgroundDot b d) = background (p.backgroundDot b d) := by
  rw [Ppu.emitted_changes, Ppu.flagDot_changes]
  unfold Ppu.backgroundDot
  split
  · unfold Ppu.backgroundFetch
    split <;> rfl
  · rfl

theorem Ppu.backgroundDot_of_dots (b : Board) {d : Nat} (h : backgroundDots d) (p : Ppu) :
    p.backgroundDot b d = p.shiftBackground.backgroundFetch b d := if_pos h

theorem Ppu.backgroundDot_of_not_dots (b : Board) {d : Nat} (h : ¬ backgroundDots d) (p : Ppu) :
    p.backgroundDot b d = p := if_neg h

theorem Ppu.tick_background_drawing (b : Board) {p : Ppu} (h : p.renderingInProgress = true) :
    background (p.tick b) = background (p.backgroundDot b p.dot) := by
  rw [Ppu.tick_drawing b h]
  simp [Ppu.backgroundDot_background_emitted]

theorem Ppu.tick_background_idle (b : Board) {p : Ppu} (h : ¬ p.renderingInProgress = true) :
    background (p.tick b) = background p := by
  obtain ⟨f, hf⟩ := Ppu.tick_idle b h
  rw [hf, Ppu.advance_background]
  exact Ppu.flagDot_background _ _ _

/-! ## The background pixel (R310) -/

theorem planes_toNat : ∀ hi lo : Bool, (planes hi lo).toNat = 2 * hi.toNat + lo.toNat := by decide

/-- A layer is off at a column, or clipped there (R310, R321). -/
theorem layer_hidden_iff (enabled left : Bool) (x : Nat) :
    (!enabled || (decide (x < 8) && !left)) = true ↔ enabled = false ∨ x < 8 ∧ left = false := by
  simp

theorem Ppu.bgPixel_toNat (p : Ppu) (x : Nat) :
    (p.bgPixel x).toNat =
      if p.mask.getLsbD 3 = false ∨ x < 8 ∧ p.mask.getLsbD 1 = false then 0
      else 2 * (p.bgHi.getLsbD (15 - p.fineX.toNat)).toNat + (p.bgLo.getLsbD (15 - p.fineX.toNat)).toNat := by
  simp only [Ppu.bgPixel, layer_hidden_iff]
  split
  · rfl
  · exact planes_toNat _ _

/-- Settles O49: the addresses as numbers, each phase and the shift by its lemma, and a tick by the one stage of
it that reaches the background. -/
theorem backgroundFetchShiftAndPixel : Obligations.BackgroundFetchShiftAndPixel := by
  unfold Obligations.BackgroundFetchShiftAndPixel
  intro b p attr d x q f
  refine ⟨p.ntAddr_toNat, p.atAddr_toNat, p.atSelect_toNat attr, p.patAddr_toNat,
    fun h => Ppu.backgroundFetch_even b h p, fun h => Ppu.backgroundFetch_nametable b h p,
    fun h => Ppu.backgroundFetch_atBits b h p, fun h => Ppu.backgroundFetch_low b h p, fun h => ?_,
    fun j hj => ⟨shiftLeft_one_getLsbD _ (by omega), shiftLeft_one_getLsbD _ (by omega)⟩,
    fun j hj => ⟨(shiftIn_getLsbD _ _).2 j hj, (shiftIn_getLsbD _ _).2 j hj⟩, shiftLeft_one_getLsbD_zero _,
    shiftLeft_one_getLsbD_zero _, (shiftIn_getLsbD _ _).1, (shiftIn_getLsbD _ _).1, rfl, fun hdraw hdots => ?_,
    fun hno => ?_, p.bgPixel_toNat x, planes_toNat _ _⟩
  · have hq : q = _ := Ppu.backgroundFetch_high b h p
    rw [hq]
    refine ⟨rfl, fun j hj => ?_⟩
    obtain ⟨hlo, hlo'⟩ := reload_getLsbD p.bgLo p.ptLo hj
    obtain ⟨hhi, hhi'⟩ := reload_getLsbD p.bgHi (ppuRead b p (p.patAddr + 8)) hj
    exact ⟨hlo, hhi, hlo', hhi'⟩
  · rw [Ppu.tick_background_drawing b (p.renderingInProgress_iff.2 hdraw), Ppu.backgroundDot_of_dots b hdots]
  · by_cases hdraw : p.renderingInProgress = true
    · have hdots : ¬ backgroundDots p.dot := fun hdots => hno ⟨p.renderingInProgress_iff.1 hdraw, hdots⟩
      rw [Ppu.tick_background_drawing b hdraw, Ppu.backgroundDot_of_not_dots b hdots]
    · exact Ppu.tick_background_idle b hdraw

end Sys2Proof.Machine

namespace Sys2Proof.Machine

open Sys2Proof.Spec (drawing evaluated)

/-! ## Copying sprites to secondary OAM (R316) -/

theorem Ppu.copySprite_secOam_read (n k a : Nat) (p : Ppu) :
    (p.copySprite n k).secOam.read a =
      if 4 * k ≤ a ∧ a < 4 * k + 4 then p.oam.read (4 * n + (a - 4 * k)) else p.secOam.read a := by
  simp only [Ppu.copySprite, Memory.read_write]
  by_cases h : 4 * k ≤ a ∧ a < 4 * k + 4
  · rw [if_pos h]
    obtain ⟨j, rfl⟩ : ∃ j, a = 4 * k + j := ⟨a - 4 * k, by omega⟩
    have hj : j < 4 := by omega
    interval_cases j <;> simp
  · rw [if_neg h, if_neg (by omega), if_neg (by omega), if_neg (by omega), if_neg (by omega)]

@[simp] theorem Ppu.copySprites_oam (ns : List Nat) (k : Nat) (p : Ppu) :
    (Ppu.copySprites ns k p).oam = p.oam := by
  rw [Ppu.copySprites_changes]

/-- The entries below the first one copied to stay. -/
theorem Ppu.copySprites_read_below (ns : List Nat) : ∀ {k a : Nat} (p : Ppu), a < 4 * k →
    (Ppu.copySprites ns k p).secOam.read a = p.secOam.read a := by
  induction ns with
  | nil => intro k a p _; rfl
  | cons n ns ih =>
    intro k a p ha
    rw [Ppu.copySprites, ih _ (by omega), Ppu.copySprite_secOam_read, if_neg (by omega)]

/-- Entry `k + i` holds the four bytes of the `i`-th sprite listed. -/
theorem Ppu.copySprites_read (ns : List Nat) : ∀ {k i j : Nat} (p : Ppu), i < ns.length → j < 4 →
    (Ppu.copySprites ns k p).secOam.read (4 * (k + i) + j) = p.oam.read (4 * ns.getD i 0 + j) := by
  induction ns with
  | nil => intro k i j p hi _; simp at hi
  | cons n ns ih =>
    intro k i j p hi hj
    cases i with
    | zero =>
      rw [Ppu.copySprites, Ppu.copySprites_read_below _ _ (by omega), Ppu.copySprite_secOam_read, if_pos (by omega),
        List.getD_cons_zero]
      congr 1
      omega
    | succ i =>
      have hnext := ih (k := k + 1) (p.copySprite n k) (Nat.lt_of_succ_lt_succ hi) hj
      rw [Ppu.copySprites, List.getD_cons_succ, show k + (i + 1) = k + 1 + i by omega, hnext]
      rfl

/-! ## The sprites found (R316, R322) -/

theorem Ppu.inRange_iff (s : Nat) (p : Ppu) (n : Nat) :
    p.inRange s n = true ↔
      (p.oam.read (4 * n)).toNat ≤ s ∧ s < (p.oam.read (4 * n)).toNat + if p.ctrl.getLsbD 5 then 16 else 8 := by
  simp [Ppu.inRange, Ppu.spriteHeight]

theorem Ppu.spritesInRange_sorted (s : Nat) (p : Ppu) : (p.spritesInRange s).Pairwise (· < ·) :=
  List.pairwise_lt_range.filter _

theorem Ppu.mem_spritesInRange (s : Nat) (p : Ppu) (n : Nat) :
    n ∈ p.spritesInRange s ↔ n < 64 ∧ p.inRange s n = true := by
  rw [Ppu.spritesInRange, List.mem_filter, List.mem_range]

theorem Ppu.evaluateSprites_secCount (s : Nat) (p : Ppu) :
    (p.evaluateSprites s).secCount = min 8 (p.spritesInRange s).length := List.length_take

/-- Each entry of secondary OAM that counts holds its sprite (R316). -/
theorem Ppu.evaluateSprites_secOam_read (s : Nat) (p : Ppu) {k j : Nat}
    (hk : k < min 8 (p.spritesInRange s).length) (hj : j < 4) :
    (p.evaluateSprites s).secOam.read (4 * k + j) = p.oam.read (4 * (p.spritesInRange s).getD k 0 + j) := by
  have hlen : k < ((p.spritesInRange s).take 8).length := by rwa [List.length_take]
  have htake : ((p.spritesInRange s).take 8).getD k 0 = (p.spritesInRange s).getD k 0 := by
    rw [List.getD_eq_getElem?_getD, List.getD_eq_getElem?_getD, List.getElem?_take_of_lt (by omega)]
  have hread := Ppu.copySprites_read ((p.spritesInRange s).take 8) (k := 0) p hlen hj
  rw [Nat.zero_add, htake] at hread
  exact hread

theorem Ppu.evaluateSprites_sprOverflow (s : Nat) (p : Ppu) :
    (p.evaluateSprites s).sprOverflow = true ↔ p.sprOverflow = true ∨ 8 < (p.spritesInRange s).length := by
  simp [Ppu.evaluateSprites]

theorem Ppu.evaluateSprites_oam (s : Nat) (p : Ppu) : (p.evaluateSprites s).oam = p.oam := by
  rw [Ppu.evaluateSprites_changes]

/-! ## Evaluation over a tick (R290; D20, D22, D23) -/

/-- Evaluation reads primary OAM, the sprite size and the overflow flag, and writes over secondary OAM. -/
theorem Ppu.evaluated_evaluateSprites_congr (s : Nat) {p q : Ppu} (hoam : q.oam = p.oam) (hctrl : q.ctrl = p.ctrl)
    (hsec : q.secOam = p.secOam) (hover : q.sprOverflow = p.sprOverflow) :
    evaluated (q.evaluateSprites s) = evaluated (p.evaluateSprites s) := by
  have hrange : q.inRange s = p.inRange s := by
    funext n
    rw [Ppu.inRange, Ppu.inRange, Ppu.spriteHeight, Ppu.spriteHeight, hoam, hctrl]
  have hfound : q.spritesInRange s = p.spritesInRange s := by
    rw [Ppu.spritesInRange, Ppu.spritesInRange, hrange]
  unfold evaluated Ppu.evaluateSprites
  dsimp only
  rw [hfound, hrange, hover, Ppu.copySprites_secOam_congr _ 0 hoam hsec]

/-- A drawing tick leaves what its line-end dot leaves. -/
theorem Ppu.tick_evaluated_drawing (b : Board) {p : Ppu} (h : p.renderingInProgress = true) :
    evaluated (p.tick b) =
      evaluated ((((p.flagDot p.scanline p.dot).emitted p.scanline p.dot).backgroundDot b p.dot).lineEndDot
        p.scanline p.dot) := by
  rw [Ppu.tick_drawing b h]
  simp [evaluated]

theorem Ppu.flagDot_evaluated {s d : Nat} (h : ¬ (s = 261 ∧ d = 1)) (p : Ppu) :
    evaluated (p.flagDot s d) = evaluated p := by
  simp [evaluated, Ppu.flagDot_sprOverflow, h]

theorem Ppu.lineEndDot_evaluated {s d : Nat} (h : d ≠ 257) (p : Ppu) :
    evaluated (p.lineEndDot s d) = evaluated p := by
  unfold Ppu.lineEndDot
  split
  · rfl
  · rfl

/-- Dot 257 of a visible line evaluates the sprites of the next. -/
theorem Ppu.tick_evaluates (b : Board) {p : Ppu} (h : drawing p) (hdot : p.dot = 257) (hline : p.scanline ≤ 239) :
    evaluated (p.tick b) = evaluated (p.evaluateSprites p.scanline) := by
  have hvisible : visibleLine p.scanline = true := by simpa [visibleLine] using hline
  rw [Ppu.tick_evaluated_drawing b (p.renderingInProgress_iff.2 h), hdot, Ppu.lineEndDot, if_neg (by decide),
    if_pos rfl]
  dsimp only
  rw [if_pos hvisible]
  refine Ppu.evaluated_evaluateSprites_congr _ ?_ ?_ ?_ ?_
  · simp
  · simp
  · simp
  · simp [Ppu.flagDot_sprOverflow]

/-- Dot 257 of the pre-render line marks secondary OAM empty. -/
theorem Ppu.tick_clears_secondary (b : Board) {p : Ppu} (h : drawing p) (hdot : p.dot = 257)
    (hline : p.scanline = 261) : evaluated (p.tick b) = (p.secOam, 0, false, p.sprOverflow) := by
  rw [Ppu.tick_evaluated_drawing b (p.renderingInProgress_iff.2 h), hdot, hline]
  simp [evaluated, Ppu.lineEndDot, visibleLine, Ppu.clearSecondary, Ppu.flagDot_sprOverflow]

theorem Ppu.tick_evaluated_other (b : Board) {p : Ppu} (h : ¬ (drawing p ∧ p.dot = 257))
    (hclear : ¬ (p.scanline = 261 ∧ p.dot = 1)) : evaluated (p.tick b) = evaluated p := by
  have hflag := Ppu.flagDot_evaluated hclear p
  by_cases hdraw : p.renderingInProgress = true
  · have hdot : p.dot ≠ 257 := fun hc => h ⟨p.renderingInProgress_iff.1 hdraw, hc⟩
    rw [Ppu.tick_evaluated_drawing b hdraw, Ppu.lineEndDot_evaluated hdot, ← hflag]
    simp [evaluated]
  · obtain ⟨f, hf⟩ := Ppu.tick_idle b hdraw
    rw [hf, ← hflag]
    simp [evaluated]

/-- Settles O50: the rising list is the model's list of sprites in range; a tick by its line-end dot. -/
theorem evaluationFindsTheFirstEightSprites : Obligations.EvaluationFindsTheFirstEightSprites := by
  unfold Obligations.EvaluationFindsTheFirstEightSprites
  refine ⟨fun p s => ?_, fun b p => ⟨Ppu.tick_evaluates b, Ppu.tick_clears_secondary b, Ppu.tick_evaluated_other b⟩⟩
  have hmem (n : Nat) := (p.mem_spritesInRange s n).trans (and_congr_right' (p.inRange_iff s n))
  refine ⟨p.spritesInRange s, p.spritesInRange_sorted s, hmem, p.evaluateSprites_secCount s,
    fun k j => p.evaluateSprites_secOam_read s, p.evaluateSprites_sprOverflow s, ?_, p.evaluateSprites_oam s⟩
  rw [Ppu.mem_spritesInRange]
  exact (and_iff_right (by decide)).symm

end Sys2Proof.Machine

namespace Sys2Proof.Machine

open Sys2Proof.Spec (drawing backgroundDots)

/-! ## Sprite pattern addresses (R320) -/

theorem Ppu.spriteHeight_eq_two_pow (p : Ppu) : ∃ w, (w = 3 ∨ w = 4) ∧ p.spriteHeight = 2 ^ w := by
  unfold Ppu.spriteHeight
  split
  · exact ⟨4, .inr rfl, rfl⟩
  · exact ⟨3, .inl rfl, rfl⟩

/-- The row of a sprite on a line as a number: the distance from its top modulo its height, flipped or not
(R320). -/
theorem Ppu.spriteRow_toNat (p : Ppu) (s : Nat) (y attr : Byte) :
    (p.spriteRow s y attr).toNat =
      if attr.getLsbD 7 then p.spriteHeight - 1 - (((s : Int) - y.toNat) % (p.spriteHeight : Int)).toNat
      else (((s : Int) - y.toNat) % (p.spriteHeight : Int)).toNat := by
  obtain ⟨w, hw, hheight⟩ := p.spriteHeight_eq_two_pow
  have hy := y.isLt
  have hmask : (BitVec.ofNat 14 p.spriteHeight - 1).toNat = 2 ^ w - 1 := by
    rw [hheight]
    rcases hw with rfl | rfl <;> rfl
  have hline : ((BitVec.ofNat 14 s - y.setWidth 14) &&& (BitVec.ofNat 14 p.spriteHeight - 1)).toNat =
      (((s : Int) - y.toNat) % (p.spriteHeight : Int)).toNat := by
    rw [toNat_and_field _ _ 0 w (by omega), BitVec.toNat_sub, BitVec.toNat_ofNat, BitVec.toNat_setWidth, hheight]
    rcases hw with rfl | rfl <;> omega
  unfold Ppu.spriteRow
  dsimp only
  split
  · rw [BitVec.toNat_sub, hline, hmask, hheight]
    rcases hw with rfl | rfl <;> omega
  · exact hline

theorem Ppu.spriteRow_lt (p : Ppu) (s : Nat) (y attr : Byte) : (p.spriteRow s y attr).toNat < p.spriteHeight := by
  obtain ⟨w, hw, hheight⟩ := p.spriteHeight_eq_two_pow
  rw [Ppu.spriteRow_toNat, hheight]
  rcases hw with rfl | rfl <;> split <;> omega

/-- A sprite of 16 rows: the table by the tile's low bit, two tiles one above the other (R320). -/
theorem Ppu.spritePatAddr_tall {p : Ppu} (h : p.ctrl.getLsbD 5 = true) (s : Nat) (y tile attr : Byte) :
    (p.spritePatAddr s y tile attr).toNat =
      4096 * (tile.toNat % 2) + 32 * (tile.toNat / 2) + 16 * ((p.spriteRow s y attr).toNat / 8) +
        (p.spriteRow s y attr).toNat % 8 := by
  have hrow := p.spriteRow_lt s y attr
  rw [Ppu.spriteHeight, if_pos h] at hrow
  rw [Ppu.spritePatAddr]
  rw [if_pos h]
  generalize p.spriteRow s y attr = row at hrow
  have ht := tile.isLt
  have htable : ((tile &&& 1).setWidth 14 <<< 12).toNat = 4096 * (tile.toNat % 2) := by
    rw [BitVec.toNat_shiftLeft, Nat.shiftLeft_eq, BitVec.toNat_setWidth, toNat_and_field tile 1 0 1 rfl]
    omega
  have htile : ((tile &&& 0xFE).setWidth 14 <<< 4).toNat = 32 * (tile.toNat / 2) := by
    rw [BitVec.toNat_shiftLeft, Nat.shiftLeft_eq, BitVec.toNat_setWidth, toNat_and_field tile 0xFE 1 7 rfl]
    omega
  have hhalf : ((row &&& 8) <<< 1).toNat = 16 * (row.toNat / 8) := by
    rw [BitVec.toNat_shiftLeft, Nat.shiftLeft_eq, toNat_and_field row 8 3 1 rfl]
    omega
  have hlow : (row &&& 7).toNat = row.toNat % 8 := by
    rw [toNat_and_field row 7 0 3 rfl]
    omega
  rw [toNat_or_below 3 ?_ (by omega), toNat_or_below 5 ?_ (by omega), toNat_or_below 12 (by omega) (by omega),
    htable, htile, hhalf, hlow]
  · rw [toNat_or_below 12 (by omega) (by omega)]
    omega
  · rw [toNat_or_below 5 ?_ (by omega), toNat_or_below 12 (by omega) (by omega)]
    · omega
    · rw [toNat_or_below 12 (by omega) (by omega)]
      omega

/-- A sprite of 8 rows: the table PPUCTRL selects (R320). -/
theorem Ppu.spritePatAddr_short {p : Ppu} (h : ¬ p.ctrl.getLsbD 5 = true) (s : Nat) (y tile attr : Byte) :
    (p.spritePatAddr s y tile attr).toNat =
      (if p.ctrl.getLsbD 3 then 4096 else 0) + 16 * tile.toNat + (p.spriteRow s y attr).toNat := by
  have hrow := p.spriteRow_lt s y attr
  rw [Ppu.spriteHeight, if_neg h] at hrow
  rw [Ppu.spritePatAddr]
  rw [if_neg h, patternAddr_toNat tile (by split <;> rfl) (by omega)]
  split <;> rfl

/-! ## The sprite units (R321) -/

theorem bitVec_toNat_eq_zero_iff {n : Nat} (x : BitVec n) : x.toNat = 0 ↔ x = 0 := by
  rw [← BitVec.toNat_inj]
  rfl

theorem SpriteUnit.pixel_toNat (u : SpriteUnit) :
    u.pixel.toNat = if u.xcnt = 0 then 2 * (u.patHi.getLsbD 7).toNat + (u.patLo.getLsbD 7).toNat else 0 := by
  unfold SpriteUnit.pixel
  split
  · exact planes_toNat _ _
  · rfl

theorem SpriteUnit.advance_eq (u : SpriteUnit) :
    u.advance =
      if u.xcnt = 0 then
        { u with patLo := BitVec.ofNat 8 (2 * u.patLo.toNat), patHi := BitVec.ofNat 8 (2 * u.patHi.toNat) }
      else { u with xcnt := u.xcnt - 1 } := by
  have hshift (x : Byte) : x <<< 1 = BitVec.ofNat 8 (2 * x.toNat) := aslRes_eq false x
  rw [SpriteUnit.advance, hshift, hshift]

/-- With no opaque unit there is none to give a pixel. -/
theorem firstOpaque_none (us : List SpriteUnit) : ∀ k, (∀ u ∈ us, u.pixel = 0) → firstOpaque k us = none := by
  induction us with
  | nil => intro k _; rfl
  | cons u us ih =>
    intro k h
    rw [firstOpaque, if_neg (not_not.2 (h u List.mem_cons_self))]
    exact ih (k + 1) fun w hw => h w (List.mem_cons_of_mem u hw)

/-- The first opaque unit is found, with its number. -/
theorem firstOpaque_some (us : List SpriteUnit) : ∀ (k i : Nat) {u : SpriteUnit}, us[i]? = some u → u.pixel ≠ 0 →
    (∀ j w, j < i → us[j]? = some w → w.pixel = 0) → firstOpaque k us = some (k + i, u) := by
  induction us with
  | nil => intro k i u hu; simp at hu
  | cons v us ih =>
    intro k i u hu hopaque hbefore
    cases i with
    | zero =>
      obtain rfl : v = u := by simpa using hu
      rw [firstOpaque, if_pos hopaque]
      rfl
    | succ i =>
      have hfirst : v.pixel = 0 := hbefore 0 v (Nat.succ_pos i) rfl
      rw [firstOpaque, if_neg (not_not.2 hfirst), ih (k + 1) i (by simpa using hu) hopaque
        fun j w hj hw => hbefore (j + 1) w (Nat.succ_lt_succ hj) (by simpa using hw)]
      rw [show k + 1 + i = k + (i + 1) by omega]

theorem Ppu.spritePixel_hidden {p : Ppu} {x : Nat}
    (h : p.mask.getLsbD 4 = false ∨ x < 8 ∧ p.mask.getLsbD 2 = false) : (p.spritePixel x).pix = 0 := by
  rw [Ppu.spritePixel, if_pos ((layer_hidden_iff ..).2 h)]

theorem Ppu.spritePixel_transparent {p : Ppu} (x : Nat) (h : ∀ u ∈ p.units, u.pixel = 0) :
    (p.spritePixel x).pix = 0 := by
  unfold Ppu.spritePixel
  split
  · rfl
  · rw [firstOpaque_none _ 0 h]

theorem Ppu.spritePixel_opaque {p : Ppu} {x i : Nat} {u : SpriteUnit}
    (hshown : ¬ (p.mask.getLsbD 4 = false ∨ x < 8 ∧ p.mask.getLsbD 2 = false)) (hu : p.units[i]? = some u)
    (hopaque : u.pixel ≠ 0) (hbefore : ∀ j w, j < i → p.units[j]? = some w → w.pixel = 0) :
    p.spritePixel x = ⟨u.pixel, u.attr.setWidth 2, u.attr.getLsbD 5, i == 0⟩ := by
  rw [Ppu.spritePixel, if_neg (mt (layer_hidden_iff ..).1 hshown), firstOpaque_some _ 0 i hu hopaque hbefore,
    Nat.zero_add]

/-! ## Loading the units (R319; D24) -/

theorem bitrev8_getLsbD (x : Byte) {j : Nat} (hj : j < 8) : (bitrev8 x).getLsbD j = x.getLsbD (7 - j) := by
  rw [bitrev8, BitVec.getLsbD_reverse, BitVec.getMsbD, decide_eq_true hj, Bool.true_and]

/-- A plane as a unit takes it: in reverse order under a horizontal flip (R319). -/
theorem turned_getLsbD (flip : Bool) (x : Byte) {j : Nat} (hj : j < 8) :
    (if flip then bitrev8 x else x).getLsbD j = x.getLsbD (if flip then 7 - j else j) := by
  cases flip with
  | false => rfl
  | true => exact bitrev8_getLsbD x hj

section
variable (b : Board) (s d : Nat) (p : Ppu)

/-- A fetch step does not look at OAMADDR. -/
theorem Ppu.spriteFetch_oamAddr_apart (a : Byte) :
    { p with oamAddr := a }.spriteFetch b s d = { p.spriteFetch b s d with oamAddr := a } := by
  unfold Ppu.spriteFetch
  dsimp only
  split
  · split <;> rfl
  · split <;> split <;> rfl
  · rfl

/-- Only the last phase of a slot reaches the units. -/
theorem Ppu.spriteFetch_units_kept (h : (d - 257) % 8 ≠ 7) : (p.spriteFetch b s d).units = p.units := by
  unfold Ppu.spriteFetch
  dsimp only
  split
  · split <;> rfl
  · exact absurd ‹_› h
  · rfl

/-- Only the fetches of a slot that is not empty reach `tmp_lo`. -/
theorem Ppu.spriteFetch_tmpLo_kept
    (h : (d - 257) % 8 ≠ 5 ∧ (d - 257) % 8 ≠ 7 ∨ p.secCount ≤ (d - 257) / 8) :
    (p.spriteFetch b s d).tmpLo = p.tmpLo := by
  unfold Ppu.spriteFetch
  dsimp only
  split
  · rw [if_neg (by omega)]
  · have hempty : ¬ (d - 257) / 8 < p.secCount := by omega
    simp only [if_neg hempty]
    split <;> rfl
  · rfl

/-- The sprite-0 bit is taken at the last phase of slot 0. -/
theorem Ppu.spriteFetch_unitsHaveSpr0 :
    (p.spriteFetch b s d).unitsHaveSpr0 =
      if (d - 257) % 8 = 7 ∧ (d - 257) / 8 = 0 then p.secHasSpr0 else p.unitsHaveSpr0 := by
  unfold Ppu.spriteFetch
  dsimp only
  split
  · rename_i hphase
    have hno : ¬ ((d - 257) % 8 = 7 ∧ (d - 257) / 8 = 0) := by omega
    rw [if_neg hno]
    split <;> rfl
  · rename_i hphase
    simp only [hphase, true_and]
    split <;> split <;> rfl
  · rename_i hphase
    rw [if_neg (fun hc => hphase hc.1)]

/-- The pattern address of the sprite in slot `i`. -/
def Ppu.slotPatAddr (s i : Nat) (p : Ppu) : PpuAddr :=
  p.spritePatAddr s (p.secOam.read (4 * i)) (p.secOam.read (4 * i + 1)) (p.secOam.read (4 * i + 2))

theorem Ppu.spriteFetch_low (hphase : (d - 257) % 8 = 5) (h : (d - 257) / 8 < p.secCount) :
    (p.spriteFetch b s d).tmpLo = ppuRead b p (p.slotPatAddr s ((d - 257) / 8)) := by
  unfold Ppu.spriteFetch
  dsimp only
  split
  · rw [if_pos h]
    rfl
  · omega
  · exact absurd hphase ‹_›

/-- The unit that slot `i` loads: `tmp_lo` and the high plane it reads, in the order its flip asks for. -/
def Ppu.loadedUnit (b : Board) (s i : Nat) (p : Ppu) : SpriteUnit :=
  let attr := p.secOam.read (4 * i + 2)
  let hi := ppuRead b p (p.slotPatAddr s i + 8)
  { patLo := if attr.getLsbD 6 then bitrev8 p.tmpLo else p.tmpLo
    patHi := if attr.getLsbD 6 then bitrev8 hi else hi
    attr := attr, xcnt := p.secOam.read (4 * i + 3) }

/-- The last phase of a slot loads its unit, and `tmp_lo` keeps the low plane as the unit has it (log entry 2). -/
theorem Ppu.spriteFetch_high (hphase : (d - 257) % 8 = 7) (h : (d - 257) / 8 < p.secCount) :
    (p.spriteFetch b s d).units = p.units.set ((d - 257) / 8) (p.loadedUnit b s ((d - 257) / 8)) ∧
    (p.spriteFetch b s d).tmpLo = (p.loadedUnit b s ((d - 257) / 8)).patLo := by
  unfold Ppu.spriteFetch
  dsimp only
  split
  · omega
  · simp only [if_pos h]
    split <;> exact ⟨rfl, rfl⟩
  · exact absurd hphase ‹_›

theorem Ppu.spriteFetch_empty (hphase : (d - 257) % 8 = 7) (h : p.secCount ≤ (d - 257) / 8) :
    (p.spriteFetch b s d).units = p.units.set ((d - 257) / 8) SpriteUnit.empty := by
  unfold Ppu.spriteFetch
  dsimp only
  split
  · omega
  · simp only [if_neg (Nat.not_lt.2 h)]
    split <;> rfl
  · exact absurd hphase ‹_›

end

/-! ## The units over a tick (R290; D20, D22) -/

theorem Ppu.flagDot_other {s d : Nat} (hset : ¬ (s = 241 ∧ d = 1)) (hclear : ¬ (s = 261 ∧ d = 1)) (p : Ppu) :
    p.flagDot s d = p := by
  rw [Ppu.flagDot, if_neg hset, if_neg hclear]

/-- A tick of the dots 257 to 320 of a drawing line leaves the units as the fetch step leaves them. -/
theorem Ppu.tick_spriteFetch (b : Board) {p : Ppu} (h : drawing p) (hlo : 257 ≤ p.dot) (hhi : p.dot ≤ 320) :
    (p.tick b).units = (p.spriteFetch b p.scanline p.dot).units ∧
    (p.tick b).tmpLo = (p.spriteFetch b p.scanline p.dot).tmpLo ∧
    (p.tick b).unitsHaveSpr0 = (p.spriteFetch b p.scanline p.dot).unitsHaveSpr0 := by
  have hquiet : ((p.flagDot p.scanline p.dot).emitted p.scanline p.dot).backgroundDot b p.dot = p := by
    rw [Ppu.flagDot_other (by omega) (by omega), Ppu.emitted, if_neg (by omega),
      Ppu.backgroundDot_of_not_dots b (by unfold backgroundDots; omega)]
  rw [Ppu.tick_drawing b (p.renderingInProgress_iff.2 h), hquiet, Ppu.advance_units, Ppu.advance_tmpLo,
    Ppu.advance_unitsHaveSpr0, Ppu.verticalDot_units, Ppu.verticalDot_tmpLo, Ppu.verticalDot_unitsHaveSpr0,
    Ppu.spriteDot, if_pos ⟨hlo, hhi⟩, Ppu.spriteFetch_oamAddr_apart]
  dsimp only
  by_cases hfirst : p.dot = 257
  · have hphase : (p.dot - 257) % 8 = 0 := by omega
    rw [Ppu.spriteFetch_units_kept _ _ _ _ (by omega), Ppu.spriteFetch_units_kept _ _ _ _ (by omega),
      Ppu.spriteFetch_tmpLo_kept _ _ _ _ (by omega), Ppu.spriteFetch_tmpLo_kept _ _ _ _ (by omega),
      Ppu.spriteFetch_unitsHaveSpr0, Ppu.spriteFetch_unitsHaveSpr0, if_neg (by omega), if_neg (by omega)]
    exact ⟨Ppu.lineEndDot_units _ _ _, Ppu.lineEndDot_tmpLo _ _ _, Ppu.lineEndDot_unitsHaveSpr0 _ _ _⟩
  · have hline : p.lineEndDot p.scanline p.dot = p := by
      rw [Ppu.lineEndDot, if_neg (by omega), if_neg hfirst]
    rw [hline]
    exact ⟨rfl, rfl, rfl⟩

/-- At every other dot of a drawing line only an emitted pixel reaches the units. -/
theorem Ppu.tick_units_no_fetch (b : Board) {p : Ppu} (h : p.renderingInProgress = true)
    (hdot : ¬ (257 ≤ p.dot ∧ p.dot ≤ 320)) :
    (p.tick b).units = ((p.flagDot p.scanline p.dot).emitted p.scanline p.dot).units ∧
    (p.tick b).tmpLo = p.tmpLo ∧ (p.tick b).unitsHaveSpr0 = p.unitsHaveSpr0 := by
  rw [Ppu.tick_drawing b h, Ppu.spriteDot, if_neg hdot]
  simp

theorem Ppu.tick_units_idle (b : Board) {p : Ppu} (h : ¬ p.renderingInProgress = true) :
    (p.tick b).units = p.units ∧ (p.tick b).tmpLo = p.tmpLo ∧ (p.tick b).unitsHaveSpr0 = p.unitsHaveSpr0 := by
  obtain ⟨f, hf⟩ := Ppu.tick_idle b h
  rw [hf]
  simp

theorem Ppu.emitPixel_units (x y : Nat) (p : Ppu) :
    (p.emitPixel x y).units = p.units.map SpriteUnit.advance := rfl

/-- A visible dot emits one pixel (R323). -/
theorem Ppu.emitted_visible {s d : Nat} (hline : s ≤ 239) (hlo : 1 ≤ d) (hhi : d ≤ 256) (p : Ppu) :
    p.emitted s d = p.emitPixel (d - 1) s := by
  rw [Ppu.emitted, if_pos ⟨by simpa [visibleLine] using hline, hlo, hhi⟩]

theorem Ppu.emitted_other {s d : Nat} (h : ¬ (s ≤ 239 ∧ 1 ≤ d ∧ d ≤ 256)) (p : Ppu) : p.emitted s d = p := by
  rw [Ppu.emitted, if_neg (by simpa [visibleLine] using h)]

/-- Settles O51: the address in both sizes; the pixel by the first opaque unit; the units over a tick by the fetch
step of dots 257 to 320 and by the emitted pixel of the visible dots. -/
theorem spritePatternAddressAndUnits : Obligations.SpritePatternAddressAndUnits := by
  unfold Obligations.SpritePatternAddressAndUnits
  refine ⟨fun p s y tile attr => ?_, fun p x => ?_, fun p x y => ?_, fun b p hdraw hlo hhi => ?_, fun b p hno => ?_⟩
  · intro h r row
    have hrow : (p.spriteRow s y attr).toNat = row := p.spriteRow_toNat s y attr
    split
    · rw [Ppu.spritePatAddr_tall ‹_›, hrow]
    · rw [Ppu.spritePatAddr_short ‹_›, hrow]
  · intro shown off
    have hshown (u : SpriteUnit) : shown u = u.pixel.toNat := u.pixel_toNat.symm
    have hzero (u : SpriteUnit) : shown u = 0 ↔ u.pixel = 0 := by rw [hshown, bitVec_toNat_eq_zero_iff]
    refine ⟨Ppu.spritePixel_hidden, fun h => Ppu.spritePixel_transparent x fun u hu => (hzero u).1 (h u hu),
      fun i u hon hu hopaque hbefore => ?_⟩
    rw [Ppu.spritePixel_opaque hon hu (mt (hzero u).2 hopaque) fun j w hj hw => (hzero w).1 (hbefore j w hj hw)]
    exact ⟨(hshown u).symm, BitVec.toNat_setWidth 2 u.attr, rfl, rfl⟩
  · rw [Ppu.emitPixel_units]
    exact congrArg (p.units.map ·) (funext SpriteUnit.advance_eq)
  · intro i phase attr addr turned t
    obtain ⟨hunits, htmp, hbit⟩ := Ppu.tick_spriteFetch b hdraw hlo hhi
    refine ⟨fun h => hunits.trans (Ppu.spriteFetch_units_kept _ _ _ _ h),
      fun h => htmp.trans (Ppu.spriteFetch_tmpLo_kept _ _ _ _ h),
      fun hphase h => htmp.trans (Ppu.spriteFetch_low _ _ _ _ hphase h), fun hphase h => ?_,
      fun hphase h => hunits.trans (Ppu.spriteFetch_empty _ _ _ _ hphase h), ?_⟩
    · obtain ⟨hset, hlow⟩ := Ppu.spriteFetch_high b p.scanline p.dot p hphase h
      exact ⟨_, hunits.trans hset, rfl, rfl, htmp.trans hlow,
        fun j hj => ⟨turned_getLsbD _ _ hj, turned_getLsbD _ _ hj⟩⟩
    · have hdot : (p.dot - 257) % 8 = 7 ∧ (p.dot - 257) / 8 = 0 ↔ p.dot = 264 := by omega
      have hfetch := Ppu.spriteFetch_unitsHaveSpr0 b p.scanline p.dot p
      simp only [hdot] at hfetch
      exact hbit.trans hfetch
  · by_cases hdraw : p.renderingInProgress = true
    · have hdots : ¬ (257 ≤ p.dot ∧ p.dot ≤ 320) := fun hc => hno ⟨p.renderingInProgress_iff.1 hdraw, hc⟩
      obtain ⟨hunits, htmp, hbit⟩ := Ppu.tick_units_no_fetch b hdraw hdots
      refine ⟨htmp, hbit, fun _ hline hlo hhi => ?_, fun hunseen => ?_⟩
      · rw [hunits, Ppu.emitted_visible hline hlo hhi, Ppu.emitPixel_units, Ppu.flagDot_units, Ppu.emitPixel_units]
      · rw [hunits, Ppu.emitted_other (fun hc => hunseen ⟨p.renderingInProgress_iff.1 hdraw, hc⟩), Ppu.flagDot_units]
    · obtain ⟨hunits, htmp, hbit⟩ := Ppu.tick_units_idle b hdraw
      exact ⟨htmp, hbit, fun hc => absurd (p.renderingInProgress_iff.2 hc) hdraw, fun _ => hunits⟩

end Sys2Proof.Machine

namespace Sys2Proof.Machine

open Sys2Proof.Spec (drawing)

/-! ## The priority table (R324) -/

/-- A palette index as a number: background or sprite half, palette, pixel. -/
theorem paletteIndex_toNat : ∀ (half : BitVec 1) (pal pix : BitVec 2),
    (half ++ pal ++ pix).toNat = 16 * half.toNat + 4 * pal.toNat + pix.toNat := by decide

/-- The sprite is in front of a transparent background, and of any background unless its priority bit is set. -/
theorem pixelIndex_sprite {bg : BitVec 2} (pal : BitVec 2) {sp : SpritePixel} (hsp : sp.pix ≠ 0)
    (h : bg = 0 ∨ sp.behind = false) :
    (pixelIndex bg pal sp).toNat = 16 + 4 * sp.pal.toNat + sp.pix.toNat := by
  rw [pixelIndex, if_pos ⟨hsp, h⟩, paletteIndex_toNat]
  rfl

/-- An opaque background is seen where no sprite is in front of it. -/
theorem pixelIndex_background {bg : BitVec 2} (pal : BitVec 2) {sp : SpritePixel} (hbg : bg ≠ 0)
    (h : sp.pix = 0 ∨ sp.behind = true) : (pixelIndex bg pal sp).toNat = 4 * pal.toNat + bg.toNat := by
  have hno : ¬ (sp.pix ≠ 0 ∧ (bg = 0 ∨ sp.behind = false)) := by
    rintro ⟨hsp, hzero | hfront⟩
    · exact hbg hzero
    · rcases h with hsp' | hbehind
      · exact hsp hsp'
      · simp [hbehind] at hfront
  rw [pixelIndex, if_neg hno, if_pos hbg, paletteIndex_toNat]
  simp

theorem pixelIndex_backdrop (pal : BitVec 2) {sp : SpritePixel} (hsp : sp.pix = 0) : pixelIndex 0 pal sp = 0 := by
  simp [pixelIndex, hsp]

/-! ## Sprite-0 hit (R328) -/

theorem bitVec_bne_zero_iff {n : Nat} (x : BitVec n) : (x != 0) = true ↔ x.toNat ≠ 0 := by
  rw [bne_iff_ne, Ne, ← bitVec_toNat_eq_zero_iff]

theorem Ppu.sprite0Hits_iff (p : Ppu) (x : Nat) :
    p.sprite0Hits x = true ↔ (p.bgPixel x).toNat ≠ 0 ∧ (p.spritePixel x).pix.toNat ≠ 0 ∧
      (p.spritePixel x).fromUnit0 = true ∧ p.unitsHaveSpr0 = true ∧ x + 1 ≤ 255 := by
  simp only [Ppu.sprite0Hits, Bool.and_eq_true, bitVec_bne_zero_iff, decide_eq_true_eq, and_assoc]

/-- An opaque background pixel needs its layer on, and not clipped (R310). -/
theorem Ppu.bgPixel_shown {p : Ppu} {x : Nat} (h : (p.bgPixel x).toNat ≠ 0) :
    p.mask.getLsbD 3 = true ∧ (x < 8 → p.mask.getLsbD 1 = true) := by
  rw [Ppu.bgPixel_toNat] at h
  by_cases hhidden : p.mask.getLsbD 3 = false ∨ x < 8 ∧ p.mask.getLsbD 1 = false
  · exact absurd (if_pos hhidden) h
  · simpa using hhidden

/-- So does an opaque sprite pixel (R321). -/
theorem Ppu.spritePixel_shown {p : Ppu} {x : Nat} (h : (p.spritePixel x).pix.toNat ≠ 0) :
    p.mask.getLsbD 4 = true ∧ (x < 8 → p.mask.getLsbD 2 = true) := by
  by_cases hhidden : p.mask.getLsbD 4 = false ∨ x < 8 ∧ p.mask.getLsbD 2 = false
  · exact absurd (congrArg BitVec.toNat (Ppu.spritePixel_hidden hhidden)) h
  · simpa using hhidden

/-! ## The emitted pixel over a tick (R323, R325; D30) -/

@[simp] theorem Ppu.backgroundDot_framebuffer (b : Board) (d : Nat) (p : Ppu) :
    (p.backgroundDot b d).framebuffer = p.framebuffer := by
  rw [Ppu.backgroundDot_changes]
@[simp] theorem Ppu.lineEndDot_framebuffer (s d : Nat) (p : Ppu) :
    (p.lineEndDot s d).framebuffer = p.framebuffer := by
  rw [Ppu.lineEndDot_changes]
@[simp] theorem Ppu.spriteDot_framebuffer (b : Board) (s d : Nat) (p : Ppu) :
    (p.spriteDot b s d).framebuffer = p.framebuffer := by
  rw [Ppu.spriteDot_changes]
@[simp] theorem Ppu.verticalDot_framebuffer (s d : Nat) (p : Ppu) :
    (p.verticalDot s d).framebuffer = p.framebuffer := by
  rw [Ppu.verticalDot_changes]

theorem Ppu.emitPixel_framebuffer (x y : Nat) (p : Ppu) :
    (p.emitPixel x y).framebuffer =
      p.framebuffer.setPixel x y (p.colour (pixelIndex (p.bgPixel x) p.bgPalette (p.spritePixel x))) := rfl

section
variable (b : Board) {p : Ppu} (h : drawing p) (hline : p.scanline ≤ 239) (hlo : 1 ≤ p.dot) (hhi : p.dot ≤ 256)
include hline hlo hhi

/-- On a visible line no flag dot comes before the pixel. -/
theorem Ppu.flagDot_emitted_visible :
    (p.flagDot p.scanline p.dot).emitted p.scanline p.dot = p.emitPixel (p.dot - 1) p.scanline := by
  rw [Ppu.flagDot_other (by omega) (by omega), Ppu.emitted_visible hline hlo hhi]

include h

/-- A visible dot with rendering enabled leaves the framebuffer its pixel leaves. -/
theorem Ppu.tick_framebuffer_visible :
    (p.tick b).framebuffer = (p.emitPixel (p.dot - 1) p.scanline).framebuffer := by
  rw [Ppu.tick_drawing b (p.renderingInProgress_iff.2 h), Ppu.flagDot_emitted_visible hline hlo hhi]
  simp

/-- It sets `spr0_hit` as its pixel does. -/
theorem Ppu.tick_spr0Hit_visible :
    (p.tick b).spr0Hit = true ↔ p.spr0Hit = true ∨ p.sprite0Hits (p.dot - 1) = true := by
  rw [Ppu.tick_spr0Hit_drawing b (p.renderingInProgress_iff.2 h), Ppu.flagDot_emitted_visible hline hlo hhi]
  exact Bool.or_eq_true_iff

end

/-- No other dot sets `spr0_hit` (R328, R332). -/
theorem Ppu.tick_spr0Hit_clear (b : Board) {p : Ppu}
    (h : ¬ (drawing p ∧ p.scanline ≤ 239 ∧ 1 ≤ p.dot ∧ p.dot ≤ 256)) (hclear : p.spr0Hit = false) :
    (p.tick b).spr0Hit = false := by
  have hflag : (p.flagDot p.scanline p.dot).spr0Hit = false := by
    rw [Ppu.flagDot_spr0Hit, hclear, ite_self]
  by_cases hdraw : p.renderingInProgress = true
  · have hno : ¬ (p.scanline ≤ 239 ∧ 1 ≤ p.dot ∧ p.dot ≤ 256) :=
      fun hc => h ⟨p.renderingInProgress_iff.1 hdraw, hc⟩
    rwa [Ppu.tick_spr0Hit_drawing b hdraw, Ppu.emitted_other hno]
  · rwa [Ppu.tick_spr0Hit_idle b hdraw]

/-- Settles O52: the table by which layer is seen; a visible dot by the pixel it emits; the flag at every other dot
by the stages that touch it. -/
theorem pixelPriorityAndSpriteZeroHit : Obligations.PixelPriorityAndSpriteZeroHit := by
  unfold Obligations.PixelPriorityAndSpriteZeroHit
  refine ⟨fun bg pal sp => ?_, fun b p hmask hline hlo hhi => ?_, fun b p => Ppu.tick_spr0Hit_of_set b,
    fun b p => Ppu.tick_spr0Hit_clear b⟩
  · simp only [ne_eq, bitVec_toNat_eq_zero_iff]
    refine ⟨?_, ?_, fun hbg hsp => ?_, fun hbg hsp hfront => ?_, fun hbg hsp hbehind => ?_⟩
    · rintro rfl hsp
      exact pixelIndex_backdrop pal hsp
    · exact fun hbg hsp => pixelIndex_sprite pal hsp (.inl hbg)
    · exact pixelIndex_background pal hbg (.inl hsp)
    · exact pixelIndex_sprite pal hsp (.inr hfront)
    · exact pixelIndex_background pal hbg (.inr hbehind)
  · intro x hit entry
    have hdraw : drawing p := ⟨hmask, .inl hline⟩
    have hcolumn : x + 1 = p.dot := Nat.sub_add_cancel hlo
    have hhit : p.sprite0Hits x = true ↔ hit := by rw [Ppu.sprite0Hits_iff, hcolumn]
    have hcolour : p.colour (pixelIndex (p.bgPixel x) p.bgPalette (p.spritePixel x)) =
        if p.mask.getLsbD 0 then entry &&& 0x30 else entry := rfl
    rw [Ppu.tick_framebuffer_visible b hdraw hline hlo hhi, Ppu.emitPixel_framebuffer, hcolour]
    refine ⟨?_, ?_, ?_, fun x' y' hother => ?_⟩
    · rw [Ppu.tick_spr0Hit_visible b hdraw hline hlo hhi, hhit]
    · rintro ⟨hbg, hsp, -⟩
      obtain ⟨hbgOn, hbgLeft⟩ := Ppu.bgPixel_shown hbg
      obtain ⟨hspOn, hspLeft⟩ := Ppu.spritePixel_shown hsp
      exact ⟨hbgOn, hspOn, fun hx => ⟨hbgLeft hx, hspLeft hx⟩⟩
    · rw [FrameBuffer.pixel_setPixel, if_pos ⟨rfl, rfl⟩]
    · rw [FrameBuffer.pixel_setPixel, if_neg]
      rintro ⟨rfl, rfl⟩
      exact hother rfl

end Sys2Proof.Machine

namespace Sys2Proof.Machine

/-! ## The MMC1 serial port (R350, R352; D27) -/

/-- The shift register after one bit: the byte's bit 0 enters at the top (R350). -/
def mmc1ShiftIn (v : Byte) (sh : BitVec 5) : BitVec 5 := (sh >>> 1) ||| ((v.setWidth 5 &&& 1) <<< 4)

theorem mmc1ShiftIn_toNat (v : Byte) (sh : BitVec 5) :
    (mmc1ShiftIn v sh).toNat = sh.toNat / 2 + 16 * (v.toNat % 2) := by
  have hhalf : (sh >>> 1).toNat = sh.toNat / 2 := by rw [BitVec.toNat_ushiftRight, Nat.shiftRight_eq_div_pow]
  have hbit : ((v.setWidth 5 &&& 1) <<< 4).toNat = 16 * (v.toNat % 2) := by
    rw [BitVec.toNat_shiftLeft, toNat_and_field _ 1 0 1 rfl, BitVec.toNat_setWidth, Nat.shiftLeft_eq]
    omega
  have hsh := sh.isLt
  rw [mmc1ShiftIn, BitVec.or_comm, toNat_or_below 4 (by omega) (by omega), hhalf, hbit, Nat.add_comm]

/-- Five bits push out whatever the register held, and stand in it least significant first (R350). -/
theorem mmc1ShiftIn_five (v0 v1 v2 v3 v4 : Byte) (sh : BitVec 5) :
    mmc1ShiftIn v4 (mmc1ShiftIn v3 (mmc1ShiftIn v2 (mmc1ShiftIn v1 (mmc1ShiftIn v0 sh)))) =
      BitVec.ofNat 5
        (v0.toNat % 2 + 2 * (v1.toNat % 2) + 4 * (v2.toNat % 2) + 8 * (v3.toNat % 2) + 16 * (v4.toNat % 2)) := by
  have hsh := sh.isLt
  apply BitVec.eq_of_toNat_eq
  simp only [mmc1ShiftIn_toNat, BitVec.toNat_ofNat]
  omega

theorem bit7_eq_decide (v : Byte) : v.getLsbD 7 = decide (128 ≤ v.toNat) := BitVec.msb_eq_decide v

/-- A reset write (R350). -/
theorem Mmc1.serial_reset (a : Addr) {v : Byte} (hv : 128 ≤ v.toNat) (m : Mmc1) :
    m.serial a v = { m with shift := 0, count := 0, control := m.control ||| 0x0C } := by
  rw [Mmc1.serial, if_pos (by simpa only [bit7_eq_decide, decide_eq_true_iff])]

section
variable (a : Addr) {v : Byte} (hv : v.toNat < 128) {m : Mmc1}
include hv

/-- A write with bit 7 clear shifts its bit in, and commits with the fifth (R350). -/
theorem Mmc1.serial_bit :
    m.serial a v =
      if m.count + 1 = 5 then { m.commit a (mmc1ShiftIn v m.shift) with shift := 0, count := 0 }
      else { m with shift := mmc1ShiftIn v m.shift, count := m.count + 1 } := by
  rw [Mmc1.serial, if_neg (by simpa only [bit7_eq_decide, decide_eq_true_iff, not_le])]
  rfl

/-- One of the first four bits (R350). -/
theorem Mmc1.serial_shift (hm : m.count < 4) :
    m.serial a v = { m with shift := mmc1ShiftIn v m.shift, count := m.count + 1 } := by
  rw [Mmc1.serial_bit a hv, if_neg (by omega)]

/-- The fifth bit commits (R350). -/
theorem Mmc1.serial_commit (hm : m.count = 4) :
    m.serial a v = { m.commit a (mmc1ShiftIn v m.shift) with shift := 0, count := 0 } := by
  rw [Mmc1.serial_bit a hv, if_pos (by omega)]

end

/-- Which register an address of `$8000-$FFFF` commits to (R352). -/
theorem Mmc1.commit_eq {a : Addr} (ha : 0x8000 ≤ a.toNat) (r : BitVec 5) (m : Mmc1) :
    m.commit a r =
      if a.toNat < 0xA000 then { m with control := r }
      else if a.toNat < 0xC000 then { m with chr0 := r }
      else if a.toNat < 0xE000 then { m with chr1 := r }
      else { m with prg := r } := by
  have hlt := a.isLt
  by_cases hA : a.toNat < 0xA000
  · simp only [Mmc1.commit, hA, show a.toNat / 0x2000 % 4 = 0 by omega, if_true]
  by_cases hC : a.toNat < 0xC000
  · simp only [Mmc1.commit, hA, hC, show a.toNat / 0x2000 % 4 = 1 by omega, if_true, if_false]
  by_cases hE : a.toNat < 0xE000
  · simp only [Mmc1.commit, hA, hC, hE, show a.toNat / 0x2000 % 4 = 2 by omega, if_true, if_false]
  · simp only [Mmc1.commit, hA, hC, hE, show a.toNat / 0x2000 % 4 = 3 by omega, if_false]

/-- On an MMC1 board a write of `$8000-$FFFF` drives the serial port alone (R350). -/
theorem memWrite_mmc1 {a : Addr} (ha : 0x8000 ≤ a.toNat) (v : Byte) {s : State}
    (hs : s.board.cart.mapper = .mmc1) :
    memWrite a v s = { s with board := { s.board with mmc1 := s.board.mmc1.serial a v } } := by
  rw [memWrite_cart_addr (by omega)]
  simp [Board.cpuWrite, hs, show ¬ a.toNat < 0x6000 by omega, show ¬ a.toNat < 0x8000 by omega, State.setBoard]

/-- Settles O54: four bits shift in, the fifth commits the five of them. -/
theorem mmc1CommitsOnTheFifthWrite : Obligations.Mmc1CommitsOnTheFifthWrite := by
  unfold Obligations.Mmc1CommitsOnTheFifthWrite
  refine ⟨fun s a0 a1 a2 a3 a4 v0 v1 v2 v3 v4 hs hm ha0 ha1 ha2 ha3 ha4 hv0 hv1 hv2 hv3 hv4 => ?_,
    fun s a v hs ha hv => ?_⟩
  · intro s4 m r
    have hs4 : s4 = { s with board := { s.board with mmc1 :=
        { m with
          shift := mmc1ShiftIn v3 (mmc1ShiftIn v2 (mmc1ShiftIn v1 (mmc1ShiftIn v0 m.shift))), count := 4 } } } := by
      simp only [s4, memWrite_mmc1, Mmc1.serial_shift, hs, hm, ha0, ha1, ha2, ha3, hv0, hv1, hv2, hv3,
        Nat.zero_lt_succ, Nat.reduceAdd, Nat.reduceLT, m]
    refine ⟨by rw [hs4], ?_⟩
    rw [hs4, memWrite_mmc1 ha4 v4 (by exact hs), Mmc1.serial_commit a4 hv4 rfl, mmc1ShiftIn_five,
      Mmc1.commit_eq ha4]
    split
    · rfl
    split
    · rfl
    split <;> rfl
  · rw [memWrite_mmc1 ha v hs, Mmc1.serial_reset a hv]

end Sys2Proof.Machine

namespace Sys2Proof.Machine

/-! ## The PRG window (R70, R343, R344, R353, R354, R357; D12, D28, D29, D37) -/

section
variable {b : Board} {a : Addr}

theorem Board.cpuRead_expansion (h : a.toNat < 0x6000) : b.cpuRead a = 0 := by
  rw [Board.cpuRead, if_pos h]
  rfl

theorem Board.cpuRead_nrom_ram (hb : b.cart.mapper = .nrom) (h : a.toNat < 0x8000) : b.cpuRead a = 0 := by
  simp [Board.cpuRead, hb, h, Config.openBus]

theorem Board.cpuRead_prgRam (hb : b.cart.mapper = .mmc1) (hlo : 0x6000 ≤ a.toNat) (hhi : a.toNat < 0x8000) :
    b.cpuRead a = b.prgRam.read (a.toNat - 0x6000) := by
  simp [Board.cpuRead, hb, hhi, Nat.not_lt.2 hlo]

theorem Board.cpuRead_prgRom (h : 0x8000 ≤ a.toNat) : b.cpuRead a = b.cart.prg.read (b.prgIndex a) := by
  rw [Board.cpuRead, if_neg (by omega), if_neg (by omega)]

theorem Board.prgIndex_nrom (hb : b.cart.mapper = .nrom) :
    b.prgIndex a = (a.toNat - 0x8000) % (b.cart.prgBanks * 16384) := by
  rw [Board.prgIndex, hb]
  rfl

theorem Board.prgIndex_mmc1_low (hb : b.cart.mapper = .mmc1) (h : a.toNat < 0xC000) :
    b.prgIndex a = (b.mmc1BankLow * 16384 + a.toNat % 16384) % (b.cart.prgBanks * 16384) := by
  simp [Board.prgIndex, hb, h, Cartridge.prgLen]

theorem Board.prgIndex_mmc1_high (hb : b.cart.mapper = .mmc1) (h : 0xC000 ≤ a.toNat) :
    b.prgIndex a = (b.mmc1BankHigh * 16384 + a.toNat % 16384) % (b.cart.prgBanks * 16384) := by
  simp [Board.prgIndex, hb, Nat.not_lt.2 h, Cartridge.prgLen]

theorem Board.cpuWrite_nrom (hb : b.cart.mapper = .nrom) (v : Byte) : b.cpuWrite a v = b := by
  rw [Board.cpuWrite, hb]

theorem Board.cpuWrite_expansion (h : a.toNat < 0x6000) (v : Byte) : b.cpuWrite a v = b := by
  cases hb : b.cart.mapper with
  | nrom => exact b.cpuWrite_nrom hb v
  | mmc1 => simp [Board.cpuWrite, hb, h]

theorem Board.cpuWrite_prgRam (hb : b.cart.mapper = .mmc1) (hlo : 0x6000 ≤ a.toNat) (hhi : a.toNat < 0x8000)
    (v : Byte) : b.cpuWrite a v = { b with prgRam := b.prgRam.write (a.toNat - 0x6000) v } := by
  simp [Board.cpuWrite, hb, hhi, Nat.not_lt.2 hlo]

end

/-- The table of R353 by PRG mode, `$8000-$BFFF`: the even bank of the pair, bank 0, the bank. -/
theorem Board.mmc1BankLow_by_mode (b : Board) :
    (b.mmc1.control.toNat / 4 % 4 < 2 → b.mmc1BankLow = b.mmc1.prg.toNat % 16 - b.mmc1.prg.toNat % 16 % 2) ∧
    (b.mmc1.control.toNat / 4 % 4 = 2 → b.mmc1BankLow = 0) ∧
    (b.mmc1.control.toNat / 4 % 4 = 3 → b.mmc1BankLow = b.mmc1.prg.toNat % 16) := by
  unfold Board.mmc1BankLow
  refine ⟨fun h => ?_, fun h => by simp only [h], fun h => by simp only [h]⟩
  split
  · omega
  · omega
  · omega

/-- The table of R353 by PRG mode, `$C000-$FFFF`: the odd bank of the pair, the bank, the last bank. -/
theorem Board.mmc1BankHigh_by_mode (b : Board) :
    (b.mmc1.control.toNat / 4 % 4 < 2 →
      b.mmc1BankHigh = b.mmc1.prg.toNat % 16 - b.mmc1.prg.toNat % 16 % 2 + 1) ∧
    (b.mmc1.control.toNat / 4 % 4 = 2 → b.mmc1BankHigh = b.mmc1.prg.toNat % 16) ∧
    (b.mmc1.control.toNat / 4 % 4 = 3 → b.mmc1BankHigh = b.cart.prgBanks - 1) := by
  unfold Board.mmc1BankHigh
  refine ⟨fun h => ?_, fun h => by simp only [h], fun h => by simp only [h]⟩
  split
  · omega
  · omega
  · omega

/-- Settles O55: each window by its lemma, MMC1's two halves by the table of their banks. -/
theorem prgWindowByMapper : Obligations.PrgWindowByMapper := by
  unfold Obligations.PrgWindowByMapper
  intro b a v n bank mode byte
  refine ⟨fun _ h => ⟨Board.cpuRead_expansion h, Board.cpuWrite_expansion h v⟩,
    fun hb => ⟨Board.cpuWrite_nrom hb v, fun _ h => Board.cpuRead_nrom_ram hb h, fun h => ?_⟩,
    fun hb => ⟨fun hlo hhi => ⟨Board.cpuRead_prgRam hb hlo hhi, Board.cpuWrite_prgRam hb hlo hhi v⟩,
      fun hlo hhi => ?_, fun hlo => ?_⟩⟩
  · rw [Board.cpuRead_prgRom h, Board.prgIndex_nrom hb]
  · obtain ⟨hpair, hfirst, hbank⟩ := b.mmc1BankLow_by_mode
    rw [Board.cpuRead_prgRom hlo, Board.prgIndex_mmc1_low hb hhi]
    exact ⟨fun h => by rw [hpair h], fun h => by rw [hfirst h], fun h => by rw [hbank h]⟩
  · obtain ⟨hpair, hbank, hlast⟩ := b.mmc1BankHigh_by_mode
    rw [Board.cpuRead_prgRom (by omega), Board.prgIndex_mmc1_high hb hlo]
    exact ⟨fun h => by rw [hpair h], fun h => by rw [hbank h], fun h => by rw [hlast h]⟩

/-! ## Pattern memory (R346, R355, R357; D28) -/

theorem Cartridge.hasChrRam_iff (c : Cartridge) : c.hasChrRam = true ↔ c.chrBanks = 0 := beq_iff_eq

theorem Cartridge.chrLen_eq (c : Cartridge) :
    c.chrLen = if c.chrBanks = 0 then 8192 else c.chrBanks * 8192 := by
  simp only [Cartridge.chrLen, Cartridge.hasChrRam_iff]

theorem control_bit4_iff (k : BitVec 5) : k.getLsbD 4 = true ↔ k.toNat / 16 = 1 := by
  have hmsb : k.getLsbD 4 = decide (16 ≤ k.toNat) := BitVec.msb_eq_decide k
  have hk := k.isLt
  rw [hmsb, decide_eq_true_iff]
  omega

/-- The page of R355 by CHR mode: two pages of 4 KiB, or the two of one 8 KiB bank. -/
theorem Board.mmc1ChrPage_eq (b : Board) {a : PpuAddr} (ha : a.toNat < 0x2000) :
    b.mmc1ChrPage a =
      if b.mmc1.control.toNat / 16 = 1 then
        if a.toNat < 0x1000 then b.mmc1.chr0.toNat else b.mmc1.chr1.toNat
      else if a.toNat < 0x1000 then b.mmc1.chr0.toNat - b.mmc1.chr0.toNat % 2
      else b.mmc1.chr0.toNat - b.mmc1.chr0.toNat % 2 + 1 := by
  simp only [Board.mmc1ChrPage, control_bit4_iff]
  congr 1
  split <;> omega

theorem Board.chrIndex_nrom {b : Board} (hb : b.cart.mapper = .nrom) (a : PpuAddr) : b.chrIndex a = a.toNat := by
  rw [Board.chrIndex, hb]

theorem Board.chrIndex_mmc1 {b : Board} (hb : b.cart.mapper = .mmc1) (a : PpuAddr) :
    b.chrIndex a = (b.mmc1ChrPage a * 4096 + a.toNat % 4096) % b.cart.chrLen := by
  rw [Board.chrIndex, hb]

/-- CHR-ROM is read only (R346, R355). -/
theorem Board.chrRom_access {b : Board} (h : 1 ≤ b.cart.chrBanks) (a : PpuAddr) (v : Byte) :
    b.ppuRead a = b.cart.chr.read (b.chrIndex a) ∧ b.ppuWrite a v = b := by
  have hrom : ¬ b.cart.hasChrRam = true := by
    rw [Cartridge.hasChrRam_iff]
    omega
  exact ⟨if_neg hrom, if_neg hrom⟩

/-- CHR-RAM is read and written (R346, R355). -/
theorem Board.chrRam_access {b : Board} (h : b.cart.chrBanks = 0) (a : PpuAddr) (v : Byte) :
    b.ppuRead a = b.chrRam.read (b.chrIndex a) ∧
    b.ppuWrite a v = { b with chrRam := b.chrRam.write (b.chrIndex a) v } := by
  have hram : b.cart.hasChrRam = true := b.cart.hasChrRam_iff.2 h
  exact ⟨if_pos hram, if_pos hram⟩

/-- Settles O56: the index is the mapper's, and the memory the one the cartridge has. -/
theorem patternMemoryByMapper : Obligations.PatternMemoryByMapper := by
  unfold Obligations.PatternMemoryByMapper
  intro b a v ha low page size k
  have hk : b.chrIndex a = k := by
    cases hb : b.cart.mapper with
    | nrom => simp only [k, hb, if_true, Board.chrIndex_nrom hb]
    | mmc1 =>
      rw [Board.chrIndex_mmc1 hb, b.mmc1ChrPage_eq ha, Cartridge.chrLen_eq]
      exact (if_neg (by simp [hb])).symm
  rw [← hk]
  exact ⟨fun h => Board.chrRom_access h a v, fun h => Board.chrRam_access h a v⟩

end Sys2Proof.Machine

namespace Sys2Proof.Machine

/-! ## Loading an image (R341, R342) -/

theorem mapperNumber_eq (flags6 flags7 : Byte) :
    mapperNumber flags6 flags7 = flags7.toNat / 16 * 16 + flags6.toNat / 16 := by
  have hlo : (flags6 >>> 4).toNat = flags6.toNat / 16 := by
    rw [BitVec.toNat_ushiftRight, Nat.shiftRight_eq_div_pow]
  have hhi : (flags7 &&& 0xF0#8).toNat = flags7.toNat / 16 * 16 := by
    rw [toNat_and_field flags7 0xF0#8 4 4 rfl]
    omega
  have h6 := flags6.isLt
  rw [mapperNumber, toNat_or_below 4 (by omega) (by omega), hlo, hhi]

/-- The supported mapper numbers (R342). -/
theorem mapperOf_eq_some {n : Nat} {m : Mapper} (h : mapperOf n = some m) :
    (m = .nrom ↔ n = 0) ∧ (m = .mmc1 ↔ n = 1) := by
  unfold mapperOf at h
  split at h
  · obtain rfl := Option.some.inj h
    decide
  · obtain rfl := Option.some.inj h
    decide
  · cases h

theorem mapperOf_unsupported {n : Nat} (h : 2 ≤ n) : mapperOf n = none := by
  unfold mapperOf
  split
  · omega
  · omega
  · rfl

/-- Reading back `n` bytes of a file from offset `k` up, laid from address 0. -/
theorem read_ofBytes_slice (file : List Byte) {k n j : Nat} (hj : j < n) :
    (Memory.ofBytes 0 ((file.drop k).take n)).read j = file.getD (k + j) 0 := by
  rw [Memory.read_ofBytes, if_pos (Nat.zero_le _), Nat.sub_zero, List.getD_eq_getElem?_getD,
    List.getD_eq_getElem?_getD, List.getElem?_take_of_lt hj, List.getElem?_drop]

/-- Where the PRG data of a file starts: after the header, and the trainer if there is one (R341). -/
def prgOffset (file : List Byte) : Nat := 16 + (if (file.getD 6 0).getLsbD 2 then 512 else 0)

/-- The cartridge of a file's header fields and data, for the mapper `m` (R341). -/
def fileCartridge (file : List Byte) (m : Mapper) : Cartridge :=
  let prgBanks := (file.getD 4 0).toNat
  let chrBanks := (file.getD 5 0).toNat
  { mapper := m
    prgBanks := prgBanks
    prg := Memory.ofBytes 0 ((file.drop (prgOffset file)).take (prgBanks * 16384))
    chrBanks := chrBanks
    chr := Memory.ofBytes 0 ((file.drop (prgOffset file + prgBanks * 16384)).take (chrBanks * 8192))
    hdrMirroring := if (file.getD 6 0).getLsbD 0 then .vertical else .horizontal
    battery := (file.getD 6 0).getLsbD 1 }

/-- THE LOADER, once: what a file that loads has, and the cartridge it gives. -/
theorem loadINes_ok {file : List Byte} {c : Cartridge} (h : loadINes file = .ok c) :
    file.take 4 = inesMagic ∧ (file.getD 4 0).toNat ≠ 0 ∧
    ∃ m, mapperOf (mapperNumber (file.getD 6 0) (file.getD 7 0)) = some m ∧ c = fileCartridge file m := by
  unfold loadINes at h
  dsimp only at h
  split at h
  · cases h
  rename_i hheader
  split at h
  · cases h
  rename_i m hm
  change (if (file.drop (prgOffset file)).length < _ then _ else _) = _ at h
  split at h
  · cases h
  rw [List.drop_drop] at h
  exact ⟨by tauto, by tauto, m, hm, (Except.ok.inj h).symm⟩

/-- A mapper other than 0 and 1 is fatal at load (R342). -/
theorem loadINes_unsupported {file : List Byte}
    (h : mapperOf (mapperNumber (file.getD 6 0) (file.getD 7 0)) = none) : ∃ e, loadINes file = .error e := by
  cases hload : loadINes file with
  | error e => exact ⟨e, rfl⟩
  | ok c =>
    obtain ⟨-, -, m, hm, -⟩ := loadINes_ok hload
    rw [h] at hm
    cases hm

theorem Cartridge.wf_fileCartridge {file : List Byte} (h : (file.getD 4 0).toNat ≠ 0) (m : Mapper) :
    (fileCartridge file m).wf = true := by
  have hslice : ∀ k n, (Memory.ofBytes 0 ((file.drop k).take n)).wf n = true := fun k n =>
    Memory.wf_ofBytes 0 n _ (by rw [Nat.zero_add]; exact List.length_take_le n _)
  simp only [Cartridge.wf, Bool.and_eq_true, decide_eq_true_iff]
  exact ⟨⟨Nat.one_le_iff_ne_zero.2 h, hslice _ _⟩, hslice _ _⟩

/-- Settles O58: a file that loads gives the cartridge of its header and data. -/
theorem loadedImageIsTheFile : Obligations.LoadedImageIsTheFile := by
  unfold Obligations.LoadedImageIsTheFile
  refine ⟨fun file c h => ?_, fun file h => ?_⟩
  · obtain ⟨hmagic, hbanks, m, hm, rfl⟩ := loadINes_ok h
    obtain ⟨hnrom, hmmc1⟩ := mapperOf_eq_some hm
    rw [mapperNumber_eq] at hnrom hmmc1
    exact ⟨hmagic, Cartridge.wf_fileCartridge hbanks m, rfl, rfl, hnrom, hmmc1, by simp [fileCartridge],
      fun j hj => read_ofBytes_slice file hj, fun j hj => read_ofBytes_slice file hj⟩
  · rw [← mapperNumber_eq] at h
    exact loadINes_unsupported (mapperOf_unsupported h)

end Sys2Proof.Machine

namespace Sys2Proof.Machine

open Sys2Proof.Spec (getLsbD_eq_decide)

/-! ## The controllers' shift registers (R381, R383, R384; D31) -/

/-- Out of strobe mode a read moves the bits down and brings a 1 in at the top (R383). -/
theorem ctlShift_getLsbD (x : Byte) {j : Nat} (hj : j < 8) :
    (ctlShift false x).getLsbD j = (decide (j = 7) || x.getLsbD (j + 1)) := by
  have htop : ∀ j, j < 8 → (0x80 : Byte).getLsbD j = decide (j = 7) := by decide
  rw [ctlShift, if_neg Bool.false_ne_true, BitVec.getLsbD_or, BitVec.getLsbD_ushiftRight, htop j hj, Nat.add_comm 1,
    Bool.or_comm]

theorem iterate_ctlShift_getLsbD (x : Byte) (k : Nat) : ∀ {j : Nat}, j < 8 →
    ((ctlShift false)^[k] x).getLsbD j = (decide (8 ≤ j + k) || x.getLsbD (j + k)) := by
  induction k with
  | zero => intro j hj; simp [hj]
  | succ k ih =>
    intro j hj
    rw [Function.iterate_succ_apply', ctlShift_getLsbD _ hj]
    by_cases htop : j = 7
    · simp [htop, show 8 ≤ 7 + (k + 1) by omega]
    · rw [ih (by omega), Nat.add_right_comm j 1 k, Nat.add_assoc, decide_eq_false htop, Bool.false_or]

theorem byte_and_one (x : Byte) : x &&& 1 = BitVec.ofNat 8 (x.toNat % 2) := by
  apply BitVec.eq_of_toNat_eq
  rw [toNat_and_field x 1 0 1 rfl, BitVec.toNat_ofNat]
  omega

/-- The `k`-th read shows bit `k` of the byte latched, and a 1 when all eight are out (R383). -/
theorem ctlByte_iterate_ctlShift (buttons x : Byte) (k : Nat) :
    ctlByte false buttons ((ctlShift false)^[k] x) =
      BitVec.ofNat 8 (if k < 8 then x.toNat / 2 ^ k % 2 else 1) := by
  have hbit := iterate_ctlShift_getLsbD x k (j := 0) (by decide)
  rw [Nat.zero_add, getLsbD_eq_decide, getLsbD_eq_decide, Nat.pow_zero, Nat.div_one] at hbit
  rw [ctlByte, if_neg Bool.false_ne_true, byte_and_one]
  congr 1
  split
  · rename_i hk
    rw [decide_eq_false (Nat.not_le.2 hk), Bool.false_or, decide_eq_decide] at hbit
    omega
  · rename_i hk
    rw [decide_eq_true (Nat.not_lt.1 hk), Bool.true_or, decide_eq_true_iff] at hbit
    exact hbit

/-- In strobe mode a read shows the A button and shifts nothing (R383). -/
theorem ctlByte_strobe (buttons x : Byte) : ctlByte true buttons x = BitVec.ofNat 8 (buttons.toNat % 2) :=
  byte_and_one buttons

/-! ## The two ports -/

theorem busByte_ctl0 (s : State) : busByte 0x4016 s = ctlByte s.ctl.strobe s.ports.buttons0 s.ctl.shift0 := rfl

theorem busByte_ctl1 (s : State) : busByte 0x4017 s = ctlByte s.ctl.strobe s.ports.buttons1 s.ctl.shift1 := rfl

theorem iterate_afterRead_ctl0 (k : Nat) (s : State) :
    (afterRead 0x4016)^[k] s = s.setCtl { s.ctl with shift0 := (ctlShift s.ctl.strobe)^[k] s.ctl.shift0 } := by
  induction k generalizing s with
  | zero => rfl
  | succ k ih => exact ih (afterRead 0x4016 s)

theorem iterate_afterRead_ctl1 (k : Nat) (s : State) :
    (afterRead 0x4017)^[k] s = s.setCtl { s.ctl with shift1 := (ctlShift s.ctl.strobe)^[k] s.ctl.shift1 } := by
  induction k generalizing s with
  | zero => rfl
  | succ k ih => exact ih (afterRead 0x4017 s)

/-- The strobe down: both registers hold the buttons, whatever was written before (R381). -/
theorem memWrite_strobe_down (v1 : Byte) {v0 : Byte} (h : v0.toNat % 2 = 0) (s : State) :
    memWrite 0x4016 v0 (memWrite 0x4016 v1 s) =
      s.setCtl { strobe := false, shift0 := s.ports.buttons0, shift1 := s.ports.buttons1 } := by
  have hwrite (v : Byte) (t : State) : memWrite 0x4016 v t = _ := memWrite_controllers v t
  rw [hwrite, hwrite, h]
  rfl

/-- Settles O57: reads of a port iterate its register's shift and leave the other's alone. -/
theorem controllersShiftOutTheButtons : Obligations.ControllersShiftOutTheButtons := by
  unfold Obligations.ControllersShiftOutTheButtons
  refine ⟨fun s v1 v0 k _ hdown => ?_, fun s k hstrobe => ?_⟩
  · intro latched
    have hlatched : latched = s.setCtl { strobe := false, shift0 := s.ports.buttons0, shift1 := s.ports.buttons1 } :=
      memWrite_strobe_down v1 hdown s
    rw [hlatched, iterate_afterRead_ctl0, iterate_afterRead_ctl1, busByte_ctl0, busByte_ctl1]
    exact ⟨ctlByte_iterate_ctlShift _ _ k, ctlByte_iterate_ctlShift _ _ k, rfl, rfl⟩
  · rw [iterate_afterRead_ctl0, iterate_afterRead_ctl1, busByte_ctl0, busByte_ctl1]
    simp only [State.setCtl_ctl, State.setCtl_ports, hstrobe]
    exact ⟨ctlByte_strobe _ _, ctlByte_strobe _ _⟩

end Sys2Proof.Machine

namespace Sys2Proof.Machine

/-! ## The clock, dot by dot (R395) -/

theorem runDots_eq_iterate (n : Nat) (s : State) : runDots n s = dotStep^[n] s := by
  induction n generalizing s with
  | zero => rfl
  | succ n ih => exact ih (dotStep s)

/-- The PPU runs on its own: the board it reads stays. -/
theorem runDots_ppu (n : Nat) (s : State) : (runDots n s).ppu = (Ppu.tick s.board)^[n] s.ppu := by
  induction n generalizing s with
  | zero => rfl
  | succ n ih => exact ih (dotStep s)

/-- Of the CPU dots change the NMI latches alone (R415). -/
theorem runDots_cpu (n : Nat) (s : State) : ∃ prev pending, (runDots n s).cpu = s.cpu.setNmi prev pending := by
  refine runDots_induction (P := fun t => ∃ prev pending, t.cpu = s.cpu.setNmi prev pending) ?_ n s ⟨_, _, rfl⟩
  rintro t ⟨prev, pending, ht⟩
  exact ⟨_, _, by rw [dotStep_cpu, ht]; rfl⟩

/-- Settles O7: the clock is banking and then dots, and each of the claims about it one about dots. -/
theorem clockRunsThreeDotsPerCycle : Obligations.ClockRunsThreeDotsPerCycle := by
  unfold Obligations.ClockRunsThreeDotsPerCycle
  refine ⟨fun s => runDots_eq_iterate _ _, fun s => ⟨runDots_ppu _ _, clock_ram s, clock_board s, clock_ctl s, ?_⟩,
    fun s => dotStep_cpu s⟩
  obtain ⟨prev, pending, hcpu⟩ := runDots_cpu (3 * s.cpu.cycles) (s.mapCpu Cpu.bank)
  rw [clock, hcpu]
  rfl

/-! ## What is due, and what the step then does (R410, R411) -/

section
variable {s : State}

theorem due_of_reset (h : s.ports.resetLine = true ∨ s.cpu.resetPending = true) : due s = .reset := by
  rcases h with h | h <;> simp [due, h]

section
variable (hline : s.ports.resetLine = false) (hreset : s.cpu.resetPending = false)
include hline hreset

theorem due_of_halted (hhalt : s.cpu.halted = true) : due s = .stuck := by
  simp [due, hline, hreset, hhalt]

theorem due_of_nmi (hhalt : s.cpu.halted = false) (hnmi : s.cpu.nmiPending = true) : due s = .nmi := by
  simp [due, hline, hreset, hhalt, hnmi]

end

theorem halted_of_due (h : due s = .stuck) :
    s.ports.resetLine = false ∧ s.cpu.resetPending = false ∧ s.cpu.halted = true := by
  unfold due at h
  split at h
  · cases h
  rename_i hreset
  split at h
  · rename_i hhalt
    rw [Bool.not_eq_true, Bool.or_eq_false_iff] at hreset
    exact ⟨hreset.1, hreset.2, hhalt⟩
  split at h
  · cases h
  split at h <;> cases h

theorem step_of_due_reset (h : due s = .reset) : step s = .next (clock (resetSequence s)) := by
  rw [step, turn, h]

theorem step_of_due_stuck (h : due s = .stuck) : step s = .fault (.halted s.cpu.pc) := by
  rw [step, turn, h]

theorem step_of_due_nmi (h : due s = .nmi) : step s = .next (clock (nmiSequence s)) := by
  rw [step, turn, h]

theorem step_of_due_irq (h : due s = .irq) : step s = .next (clock (irqSequence s)) := by
  rw [step, turn, h]

/-- A fetched byte that is no row's opcode is named with its address (R112, R411; D8). -/
theorem step_of_undefinedOpcode (hdue : s.fetchDue) (h : rowOf (busByte s.cpu.pc s) = none) :
    step s = .fault (.undefinedOpcode (busByte s.cpu.pc s) s.cpu.pc) := by
  have hdecode : decode (fetchInstr s).1 = .error (.undefinedOpcode (busByte s.cpu.pc s)) := decode_undefined h _
  simp [step, turn, due_of_fetchDue hdue, fetch, hdecode]

/-- A fetched byte that is a row's opcode starts an instruction, and every instruction answers. -/
theorem step_of_definedOpcode (hdue : s.fetchDue) (h : rowOf (busByte s.cpu.pc s) ≠ none) :
    ∃ t, step s = .next t := by
  rcases decode_fetchInstr s with ⟨i, hi⟩ | ⟨hnone, -⟩
  · obtain ⟨u, hu⟩ := exec_next i (fetchInstr s).2
    exact ⟨clock u, by rw [step_of_decode_fetchInstr hdue hi, hu]; rfl⟩
  · exact absurd hnone h

end

/-- Settles O6: each condition makes its sequence the one that is due. -/
theorem stepSamplesResetThenNmiThenIrq : Obligations.StepSamplesResetThenNmiThenIrq := by
  unfold Obligations.StepSamplesResetThenNmiThenIrq
  exact ⟨fun s h => step_of_due_reset (due_of_reset h),
    fun s hline hreset hhalt hnmi => step_of_due_nmi (due_of_nmi hline hreset hhalt hnmi),
    fun s hline hreset hhalt hnmi hirq hi => step_of_due_irq (due_of_irqUnmasked hline hreset hhalt hnmi hirq hi)⟩

/-- Settles O5: of the five things that can be due, the stuck CPU and the fetch of an undefined byte stop. -/
theorem stepStopsExactlyOnHaltAndUndefinedOpcode : Obligations.StepStopsExactlyOnHaltAndUndefinedOpcode := by
  unfold Obligations.StepStopsExactlyOnHaltAndUndefinedOpcode
  refine ⟨fun s hline hreset hhalt => step_of_due_stuck (due_of_halted hline hreset hhalt), fun s hdue hop =>
    step_of_undefinedOpcode hdue ((rowOf_eq_none_iff _).2 hop), fun s hrunning hdefined => ?_⟩
  cases hdue : due s with
  | reset => exact ⟨_, step_of_due_reset hdue⟩
  | stuck => exact absurd (halted_of_due hdue) hrunning
  | nmi => exact ⟨_, step_of_due_nmi hdue⟩
  | irq => exact ⟨_, step_of_due_irq hdue⟩
  | instruction =>
    have hfetch := fetchDue_of_due hdue
    exact step_of_definedOpcode hfetch fun hnone => hdefined ⟨hfetch, (rowOf_eq_none_iff _).1 hnone⟩

/-! ## What every step keeps (R27, R344, R470; D1, D5, D7, D32) -/

theorem opTable_cycles : ∀ r ∈ opTable, 2 ≤ r.cycles := by
  have hall : opTable.all (fun r => decide (2 ≤ r.cycles)) = true := rfl
  simpa only [List.all_eq_true, decide_eq_true_iff] using hall

/-- Every instruction takes its row's base count or more. -/
theorem exec_counts {i : Instr} {s t : State} (h : exec i s = .next t) :
    t.cpu.cyc = s.cpu.cyc ∧ 2 ≤ t.cpu.cycles := by
  obtain ⟨op, operands, r, t', -, hrow, hexec, hcyc, hcycles⟩ := exec_rowCounts i s
  obtain rfl : t' = t := by simpa [hexec] using h
  have hbase := opTable_cycles r (rowOf_eq_some hrow).1
  exact ⟨hcyc, by omega⟩

theorem exec_cart {i : Instr} {s t : State} (h : exec i s = .next t) : t.board.cart = s.board.cart := by
  obtain ⟨t', hexec, hw⟩ := exec_writesOnly i s
  obtain rfl : t' = t := by simpa [hexec] using h
  exact hw.cart

theorem interrupt_counts (vector : Addr) (b : Bool) (ret : Addr) (s : State) :
    (interrupt vector b ret s).cpu.counts = (s.cpu.cyc, 7) := by
  simp [interrupt, memRead16, push_eq, Cpu.counts]

theorem interrupt_keeps (vector : Addr) (b : Bool) (ret : Addr) (s : State) :
    (interrupt vector b ret s).board.cart = s.board.cart ∧ (interrupt vector b ret s).cpu.cyc = s.cpu.cyc ∧
    2 ≤ (interrupt vector b ret s).cpu.cycles := by
  have hcounts := interrupt_counts vector b ret s
  simp only [Cpu.counts, Prod.mk.injEq] at hcounts
  exact ⟨(WritesOnly.interrupt vector b ret s).cart, hcounts.1, by omega⟩

/-- WHAT THE CLOCK IS GIVEN, once: every step that goes on hands it the same image and `cyc`, and a count of 2
or more. -/
theorem step_next_clock {s t : State} (h : step s = .next t) :
    ∃ u, t = clock u ∧ u.board.cart = s.board.cart ∧ u.cpu.cyc = s.cpu.cyc ∧ 2 ≤ u.cpu.cycles := by
  rcases step_next h with rfl | rfl | rfl | ⟨i, u, hu, rfl⟩
  · exact ⟨_, rfl, by simp [resetSequence_eq]⟩
  · exact ⟨_, rfl, interrupt_keeps _ _ _ _⟩
  · exact ⟨_, rfl, interrupt_keeps _ _ _ _⟩
  · obtain ⟨-, hboard, -, hcyc, -⟩ := fetchInstr_spec s
    obtain ⟨hucyc, hcycles⟩ := exec_counts hu
    exact ⟨u, rfl, (exec_cart hu).trans (congrArg Board.cart hboard), hucyc.trans hcyc, hcycles⟩

/-- Settles O60: the clock banks the count of the step and keeps the image; a RESET step is the RESET sequence
and the clock. -/
theorem stepKeepsTheCartridgeAndAdvancesTime : Obligations.StepKeepsTheCartridgeAndAdvancesTime := by
  unfold Obligations.StepKeepsTheCartridgeAndAdvancesTime
  refine ⟨fun s t h => ?_, fun s t hreset h => ?_⟩
  · obtain ⟨u, rfl, hcart, hcyc, hcycles⟩ := step_next_clock h
    rw [clock_board, clock_cpu_cyc, clock_cpu_cycles]
    exact ⟨hcart, by rw [hcyc], hcycles⟩
  · rw [step_of_due_reset (due_of_reset hreset)] at h
    obtain rfl := Host.Outcome.next.inj h
    simp [resetSequence_eq]

end Sys2Proof.Machine

namespace Sys2Proof.Spec

open Sys2Proof.Machine

/-! ## Exceptions in the spec's numbers (R413, R417, R421) -/

/-- What taking an interrupt leaves (R413): the return address and the status byte in the stack page, S, I, PC
and the count. -/
def interruptEntered (vector : Addr) (b : Bool) (ret : Addr) (s : State) : State :=
  { s with
    ram := ((s.ram.write (pushCell s.cpu.s 0) (highByte ret)).write (pushCell s.cpu.s 1) (lowByte ret)).write
      (pushCell s.cpu.s 2) (statusByte s.cpu b)
    cpu :=
      { s.cpu with
        s := s.cpu.s - 3, i := true
        pc := word (s.board.cpuRead vector) (s.board.cpuRead (vector + 1)), cycles := 7 } }

theorem interrupt_eq_entered {vector : Addr} (h : vector = nmiVector ∨ vector = irqVector) (b : Bool) (ret : Addr)
    (s : State) : interrupt vector b ret s = interruptEntered vector b ret s := by
  have hvector : 0x4020 ≤ vector.toNat ∧ 0x4020 ≤ (vector + 1).toNat := by
    rcases h with rfl | rfl <;> decide
  have hS2 : s.cpu.s - 1 - 1 = s.cpu.s - BitVec.ofNat 8 2 := by rw [BitVec.sub_sub]; rfl
  have hS3 : s.cpu.s - 1 - 1 - 1 = s.cpu.s - 3 := by rw [BitVec.sub_sub, BitVec.sub_sub]; rfl
  rw [interrupt_eq hvector.1 hvector.2, interruptEntered, pushCell_eq _ (Nat.zero_le _), pushCell_eq _ (by decide),
    pushCell_eq _ (by decide), BitVec.sub_zero, highByte_eq, lowByte_eq, word_eq, pushedP_eq_statusByte, ← hS3, ← hS2]
  rfl

/-- Settles O8: the three entries are the one sequence, with their vector, B bit and return address. -/
theorem interruptEntrySavesPcAndStatus : Obligations.InterruptEntrySavesPcAndStatus := by
  unfold Obligations.InterruptEntrySavesPcAndStatus
  intro entered s
  refine ⟨interrupt_eq_entered (.inl rfl) _ _ _, interrupt_eq_entered (.inr rfl) _ _ _, ?_⟩
  have hbrk : exec .brk s = .next (interrupt irqVector true (s.cpu.pc + 1) s) := rfl
  rw [hbrk, interrupt_eq_entered (.inr rfl)]
  rfl

/-- The return, whole: the six flags, S past the three pulled bytes, PC. -/
theorem returnFromInterrupt_whole (s : State) :
    returnFromInterrupt s =
      { s with
        cpu :=
          { pulled s.cpu (s.ram.read (pullCell s.cpu.s 1)) with
            s := s.cpu.s + 3
            pc := word (s.ram.read (pullCell s.cpu.s 2)) (s.ram.read (pullCell s.cpu.s 3)) } } := by
  have hS2 : s.cpu.s + 1 + 1 = s.cpu.s + 2 := by rw [BitVec.add_assoc]; rfl
  have hS3 : s.cpu.s + 2 + 1 = s.cpu.s + 3 := by rw [BitVec.add_assoc]; rfl
  rw [returnFromInterrupt_eq, pullCell_eq, pullCell_eq, pullCell_eq, word_eq, ← setP_eq_pulled]
  simp only [State.mapCpu, hS2, hS3]
  rfl

theorem exec_rti (s : State) : exec .rti s = .next (returnFromInterrupt (s.start 6)) := rfl

/-- Settles O9: the return, begun at its count. -/
theorem rtiPullsStatusThenPc : Obligations.RtiPullsStatusThenPc := by
  unfold Obligations.RtiPullsStatusThenPc
  intro s
  rw [exec_rti, returnFromInterrupt_whole]
  rfl

/-! ## An interrupt entry undone by its return -/

/-- After three pushes the pulls read the pushed cells, last pushed first, wherever S stands. -/
theorem pullCell_sub_three (s : Byte) {k : Nat} (hlo : 1 ≤ k) (hhi : k ≤ 3) :
    pullCell (s - 3) k = pushCell s (3 - k) := by
  have hs := s.isLt
  rw [pullCell, pushCell, BitVec.toNat_sub]
  simp only [BitVec.reduceToNat, Nat.reducePow]
  omega

/-- Pushes fewer than 256 apart name different cells. -/
theorem pushCell_ne (s : Byte) {j k : Nat} (hjk : j < k) (hk : k < 256) : pushCell s k ≠ pushCell s j := by
  have hs := s.isLt
  unfold pushCell
  omega

theorem pulled_statusByte (c c' : Cpu) (b : Bool) :
    pulled c' (statusByte c b) = { c' with n := c.n, v := c.v, d := c.d, i := c.i, z := c.z, c := c.c } := by
  rw [← pushedP_eq_statusByte, ← setP_eq_pulled, setP_pushedP]

/-- What the return pulls after the entry: the status byte, then the return address, low byte first. -/
theorem interruptEntered_pulls (vector : Addr) (b : Bool) (ret : Addr) (s : State) :
    (interruptEntered vector b ret s).ram.read (pullCell (s.cpu.s - 3) 1) = statusByte s.cpu b ∧
    (interruptEntered vector b ret s).ram.read (pullCell (s.cpu.s - 3) 2) = lowByte ret ∧
    (interruptEntered vector b ret s).ram.read (pullCell (s.cpu.s - 3) 3) = highByte ret := by
  have h10 := pushCell_ne s.cpu.s (j := 0) (k := 1) (by decide) (by decide)
  have h20 := pushCell_ne s.cpu.s (j := 0) (k := 2) (by decide) (by decide)
  have h21 := pushCell_ne s.cpu.s (j := 1) (k := 2) (by decide) (by decide)
  rw [pullCell_sub_three _ (by decide) (by decide), pullCell_sub_three _ (by decide) (by decide),
    pullCell_sub_three _ (by decide) (by decide)]
  refine ⟨Memory.read_write_same _ _ _, ?_, ?_⟩
  · exact (Memory.read_write_other _ _ h21).trans (Memory.read_write_same _ _ _)
  · exact (Memory.read_write_other _ _ h20).trans <| (Memory.read_write_other _ _ h10).trans <|
      Memory.read_write_same _ _ _

/-- The return right after the entry of an interrupt: only the RAM keeps what was pushed. -/
theorem returnFromInterrupt_entered (k : Nat) (vector : Addr) (b : Bool) (ret : Addr) (s : State) :
    returnFromInterrupt ((interruptEntered vector b ret s).start k) =
      { s with
        ram := (interruptEntered vector b ret s).ram
        cpu := { s.cpu with pc := ret, cycles := k } } := by
  obtain ⟨hstatus, hlow, hhigh⟩ := interruptEntered_pulls vector b ret s
  have hS : s.cpu.s - 3 + 3 = s.cpu.s := BitVec.sub_add_cancel _ _
  have hpc : word (lowByte ret) (highByte ret) = ret := by rw [word_eq, lowByte_eq, highByte_eq, abs16_bytes]
  have hpointer : ((interruptEntered vector b ret s).start k).cpu.s = s.cpu.s - 3 := rfl
  rw [returnFromInterrupt_whole, hpointer, start_ram, hstatus, hlow, hhigh, pulled_statusByte, hS, hpc]
  rfl

/-- Settles O10: RTI pulls the three bytes of the entry, in the order that undoes it. -/
theorem rtiUndoesInterruptEntry : Obligations.RtiUndoesInterruptEntry := by
  unfold Obligations.RtiUndoesInterruptEntry
  intro s vector b ret h
  rw [interrupt_eq_entered h]
  refine ⟨_, (exec_rti _).trans (congrArg _ (returnFromInterrupt_entered 6 vector b ret s)), fun j h0 h1 h2 => ?_⟩
  exact (Memory.read_write_other _ _ h2.symm).trans <| (Memory.read_write_other _ _ h1.symm).trans <|
    Memory.read_write_other _ _ h0.symm

/-! ## RESET and power-on (R417, R451) -/

/-- Settles O11: the sequence, with its vector in the spec's numbers. -/
theorem resetSequenceEffect : Obligations.ResetSequenceEffect := by
  unfold Obligations.ResetSequenceEffect
  intro s
  rw [resetSequence_eq, word_eq]
  rfl

end Sys2Proof.Spec

namespace Sys2Proof.Machine

open Sys2Proof.Spec (word_eq)

/-! ## The first step after power-on (R451; D1, D2, D3) -/

/-- The PPU of power-on at dot `d` of the first line. -/
def Ppu.powerOnAt (d : Nat) : Ppu := { Ppu.powerOn with dot := d }

/-- A pixel of colour 0 lists nothing in an empty raster. -/
theorem setPixel_nil_zero (x y : Nat) : FrameBuffer.setPixel [] x y 0 = [] := by
  simp [FrameBuffer.setPixel, Memory.write, Sparse.get, Sparse.set, Sparse.erase]

/-- With rendering off and a palette of zeros a dot of the first line moves the position alone. -/
theorem Ppu.tick_powerOnAt (b : Board) {d : Nat} (hd : d < 340) :
    (Ppu.powerOnAt d).tick b = Ppu.powerOnAt (d + 1) := by
  have hbackdrop : (Ppu.powerOnAt d).emitBackdrop (d - 1) 0 = Ppu.powerOnAt d := by
    have hcolour : (Ppu.powerOnAt d).colour 0 = 0 := (by decide : Ppu.powerOn.colour 0 = 0)
    rw [Ppu.emitBackdrop, hcolour]
    exact congrArg (fun f => { Ppu.powerOnAt d with framebuffer := f }) (setPixel_nil_zero _ _)
  have hactions : (Ppu.powerOnAt d).dotActions b 0 d = Ppu.powerOnAt d := by
    have hflag : (Ppu.powerOnAt d).flagDot 0 d = Ppu.powerOnAt d := rfl
    have hoff : (Ppu.powerOnAt d).rendering = false := (by decide : Ppu.powerOn.rendering = false)
    simp only [Ppu.dotActions, hflag, hoff, hbackdrop, Bool.false_eq_true, and_false, if_false, ite_self]
  have hends : (Ppu.powerOnAt d).frameEnds = false := rfl
  have hline : (Ppu.powerOnAt d).scanline = 0 := rfl
  have hdot : (Ppu.powerOnAt d).dot = d := rfl
  rw [Ppu.tick, hline, hdot, hactions, hends, Ppu.advance, if_neg Bool.false_ne_true, hdot, if_neg (by omega)]
  rfl

/-- So does the dot step, with the NMI wire low and no frame event. -/
theorem dotStep_powerOnAt {s : State} {d : Nat} (hd : d < 340) (hppu : s.ppu = Ppu.powerOnAt d)
    (hnmi : s.cpu.nmiPrev = false) : dotStep s = { s with ppu := Ppu.powerOnAt (d + 1) } := by
  have htick : s.ppu.tick s.board = Ppu.powerOnAt (d + 1) := by rw [hppu, Ppu.tick_powerOnAt _ hd]
  have hends : s.ppu.frameEnds = false := by rw [hppu]; rfl
  have hwire : (Ppu.powerOnAt (d + 1)).nmiOut = false := (by decide : Ppu.powerOn.nmiOut = false)
  refine State.ext_parts ?_ rfl htick rfl rfl (by rw [dotStep_ports, hends]; rfl)
  rw [dotStep_cpu, htick, hwire, Bool.false_and, Bool.or_false, ← hnmi]
  rfl

theorem runDots_powerOnAt (n : Nat) : ∀ {s : State} {d : Nat}, d + n ≤ 340 → s.ppu = Ppu.powerOnAt d →
    s.cpu.nmiPrev = false → runDots n s = { s with ppu := Ppu.powerOnAt (d + n) } := by
  induction n with
  | zero =>
    intro s d _ hppu _
    rw [Nat.add_zero, ← hppu]
    rfl
  | succ n ih =>
    intro s d hd hppu hnmi
    rw [runDots, dotStep_powerOnAt (by omega) hppu hnmi, Nat.add_comm n, ← Nat.add_assoc]
    exact ih (by omega) rfl hnmi

/-- Settles O13: the first step is the RESET sequence, and the 21 dots of its clock move the raster alone. -/
theorem firstStepReachesTheNamedState : Obligations.FirstStepReachesTheNamedState := by
  unfold Obligations.FirstStepReachesTheNamedState
  intro c
  have hclock : clock (resetSequence (State.powerOn c)) =
      { (resetSequence (State.powerOn c)).mapCpu Cpu.bank with ppu := Ppu.powerOnAt 21 } := by
    have hcycles : (resetSequence (State.powerOn c)).cpu.cycles = 7 := rfl
    rw [clock, hcycles]
    exact runDots_powerOnAt 21 (d := 0) (by decide) rfl rfl
  refine ⟨_, step_of_due_reset (due_of_reset (.inr rfl)), ?_⟩
  rw [hclock, resetSequence_eq, word_eq]
  exact ⟨rfl, rfl, rfl, rfl, rfl, rfl⟩

end Sys2Proof.Machine
